-- ==== Sys2Proof/Word.lean ====
section
/-! DEFINITION. The word types of the AK-718 (00_scope 0.4.1, chapter 11): bytes of a frame, the part time, encoder counts and
angle counts. Quantities that the manual only counts or compares (walls, lengths, tallies) are natural numbers. -/

namespace Sys2Proof

/-- A byte of a frame. -/
abbrev Byte := BitVec 8

/-- A run of bytes, first sent first. -/
abbrev Bytes := List Byte

/-- The part time, a free-running count of microseconds that wraps at 2^32 (0.4.1, R211). -/
abbrev PartTime := BitVec 32

/-- An encoder count, 32 bits, wrapping (0.4.1). -/
abbrev Count := BitVec 32

/-- An angle or a rotation, in parts of 1/4096 turn (0.4.1). -/
abbrev Angle := BitVec 12

end Sys2Proof
end

