-- ==== Sys2Proof/Syntax.lean ====
section
/-! DEFINITION. The commands of the AK-718: one constructor of `Instr` per row of spec/opcode_table.json, with the operands that the
row's rule gives it. An operand `t` is the part time at which the event is taken (log 1). The timed events `cycleEnd`,
`firingPoint`, `replyWindowExpiry`, `calibrationTimerExpiry` and `gateFilterExpiry` carry no part time: the state fixes it (log 2). -/

namespace Sys2Proof

/-- A line chain frame that has passed its check (R200): its header fields and payload. The payload length byte and the check code
are functions of these (R200, R201), so they are not held twice. -/
structure LineFrame where
  dest    : Byte
  source  : Byte
  kind    : Byte
  tag     : Byte
  payload : Bytes
deriving DecidableEq, Repr

/-- A head link frame that has passed its check (R200). -/
structure HeadFrame where
  node    : Byte
  kind    : Byte
  payload : Bytes
deriving DecidableEq, Repr

/-- The header fields of a COMMAND frame that the sender chooses (R164, R165). -/
structure CommandHeader where
  dest   : Byte
  source : Byte
  tag    : Byte
deriving DecidableEq, Repr

/-- The two ports of the line chain (00_scope 0.1). -/
inductive ChainPort where
  | upstream
  | downstream
deriving DecidableEq, Repr

/-- The three receiving ports (R202). -/
inductive Receiver where
  | headLink
  | upstream
  | downstream
deriving DecidableEq, Repr

/-- The two photocell lines (R73). -/
inductive GateLine where
  | a
  | b
deriving DecidableEq, Repr

/-- Which receivers hold a part of a frame at the moment a reset takes effect (R161, R205; log 8). -/
structure Cut where
  headLink   : Bool
  upstream   : Bool
  downstream : Bool
deriving DecidableEq, Repr

/-- No receiver holds a part of a frame. -/
def Cut.nothing : Cut := ⟨false, false, false⟩

/-- The commands and events of the AK-718, in the order of spec/opcode_table.json. A command from the line computer carries the
header of its COMMAND frame and the argument bytes that follow the command code (R164, R206). -/
inductive Instr where
  /-- READ_TABLE (R197). -/
  | readTable (t : PartTime) (h : CommandHeader) (args : Bytes)
  /-- WRITE_TABLE (R184). -/
  | writeTable (t : PartTime) (h : CommandHeader) (args : Bytes)
  /-- START (R26). -/
  | start (t : PartTime) (h : CommandHeader) (args : Bytes)
  /-- STOP (R29). -/
  | stop (t : PartTime) (h : CommandHeader) (args : Bytes)
  /-- ANNOUNCE (R79). -/
  | announce (t : PartTime) (h : CommandHeader) (args : Bytes)
  /-- REQUEST_CAL (R60). -/
  | requestCal (t : PartTime) (h : CommandHeader) (args : Bytes)
  /-- SET_ADDRESS (R155). -/
  | setAddress (t : PartTime) (h : CommandHeader) (args : Bytes)
  /-- STATUS (R169). -/
  | status (t : PartTime) (h : CommandHeader) (args : Bytes)
  /-- SET_SCRATCH (R171). -/
  | setScratch (t : PartTime) (h : CommandHeader) (args : Bytes)
  /-- CLEAR_CAPTURE (R176). -/
  | clearCapture (t : PartTime) (h : CommandHeader) (args : Bytes)
  /-- RESTART (R178, R180). `cut` is used by a broadcast RESTART alone, which takes effect at once. -/
  | restart (t : PartTime) (h : CommandHeader) (args : Bytes) (cut : Cut)
  /-- RESTART_TAKES_EFFECT (R181): the last byte of the RESTART answer has been sent. -/
  | restartTakesEffect (t : PartTime) (cut : Cut)
  /-- COLD_RESET (R182): RST is held low, or power comes on. -/
  | coldReset (t : PartTime) (cut : Cut)
  /-- RST_RISE (R211): RST rises. -/
  | rstRise (t : PartTime)
  /-- SHOT_REPORT (R37, R204): a checked head link frame of kind 3. -/
  | shotReport (t : PartTime) (node : Byte) (payload : Bytes)
  /-- MOTION_REPORT (R67, R203): a checked head link frame of kind 4. -/
  | motionReport (t : PartTime) (node : Byte) (payload : Bytes)
  /-- HEAD_LINK_UNKNOWN_KIND (R203): a checked head link frame of another kind or from another node. -/
  | headLinkUnknownKind (t : PartTime) (node kind : Byte) (payload : Bytes)
  /-- HEAD_FRAME_CHECK (R202): the bytes received for a head link frame up to its end, its discard or the line's falling idle. -/
  | headFrameCheck (t : PartTime) (received : Bytes)
  /-- UPSTREAM_FRAME_ARRIVAL (R150): a checked frame arrives at the upstream port. -/
  | upstreamFrameArrival (t : PartTime) (f : LineFrame)
  /-- DOWNSTREAM_FRAME_ARRIVAL (R152): a checked frame arrives at the downstream port. -/
  | downstreamFrameArrival (t : PartTime) (f : LineFrame)
  /-- LINE_FRAME_CHECK (R149, R202): the bytes received for a line chain frame, as for `headFrameCheck`. -/
  | lineFrameCheck (t : PartTime) (port : ChainPort) (received : Bytes)
  /-- UPSTREAM_TRANSMITTER_FREE (R157). -/
  | upstreamTransmitterFree (t : PartTime)
  /-- DOWNSTREAM_TRANSMITTER_FREE (R159). -/
  | downstreamTransmitterFree (t : PartTime)
  /-- HEAD_LINK_TRANSMIT_DONE (R205). -/
  | headLinkTransmitDone (t : PartTime)
  /-- CYCLE_END (R32): the END of the cycle in progress. -/
  | cycleEnd
  /-- FIRING_POINT (R33): the offset of one entry of the schedule list is reached in the cycle in progress. -/
  | firingPoint (entry : Fin 48)
  /-- REPLY_WINDOW_EXPIRY (R39): the window of a head's outstanding fire runs out. -/
  | replyWindowExpiry (head : Fin 8)
  /-- CALIBRATION_TIMER_EXPIRY (R59). -/
  | calibrationTimerExpiry
  /-- GATE_LINE_CHANGE (R73): a gate line goes to a level (high is `true`). -/
  | gateLineChange (t : PartTime) (line : GateLine) (high : Bool)
  /-- GATE_FILTER_EXPIRY (R74): a pending gate change has lasted the filter time. -/
  | gateFilterExpiry (line : GateLine)
  /-- LINE_FALLS_IDLE (R202): a receiver's line has been idle for two byte times. -/
  | lineFallsIdle (t : PartTime) (port : Receiver)
deriving DecidableEq, Repr

end Sys2Proof
end

