-- ==== Sys2Proof/Decode.lean ====
section
/-! DEFINITION. The commands that words spell. spec/opcode_table.json gives no row any bits, so no word spells a command (log 22). The
bytes of the frames that carry commands are read in Machine/Frames.lean and Machine/Commands.lean. -/

namespace Sys2Proof

/-- The command that a word of `nbits` bits spells: the table gives none. -/
def decodeTableWord (_nbits _w : Nat) : Option Instr :=
  none

end Sys2Proof
end

