-- ==== Sys2Proof/Machine/Operands.lean ====
section
/-! DEFINITION. Fields of frames: every multi-byte field is sent most significant byte first, and bit 0 is the least significant
bit of its byte (chapter 11, opening). -/

namespace Sys2Proof.Machine

/-- The byte that holds a number's eight low bits. -/
def byteOf (n : Nat) : Byte :=
  BitVec.ofNat 8 n

/-- A two-byte field. -/
def be16 (n : Nat) : Bytes :=
  [byteOf (n / 256), byteOf n]

/-- A four-byte field. -/
def be32 (n : Nat) : Bytes :=
  [byteOf (n / 16777216), byteOf (n / 65536), byteOf (n / 256), byteOf n]

/-- The number that a run of bytes spells, most significant byte first. -/
def bytesToNat (bs : Bytes) : Nat :=
  bs.foldl (fun acc b => acc * 256 + b.toNat) 0

/-- The field of `n` bytes at offset `i` of a payload. -/
def field (p : Bytes) (i n : Nat) : Nat :=
  bytesToNat ((p.drop i).take n)

/-- Bit `i` of the flags byte at offset `at_` of a payload. -/
def flagBit (p : Bytes) (at_ i : Nat) : Bool :=
  (field p at_ 1).testBit i

/-- A flag as the number 0 or 1. -/
def flagNat (b : Bool) : Nat :=
  if b then 1 else 0

/-- A flags byte from its bits, bit 0 first. -/
def packBits : List Bool → Nat
  | [] => 0
  | b :: rest => flagNat b + 2 * packBits rest

/-- A run of fixed-size groups of a payload, decoded one by one. -/
def groups (n size : Nat) (p : Bytes) : List Bytes :=
  match n with
  | 0 => []
  | m + 1 => p.take size :: groups m size (p.drop size)

end Sys2Proof.Machine
end

