-- ==== Sys2Proof/Machine/Frames.lean ====
section
/-! DEFINITION. Frame shape, check code and reception (R200 to R202): the bytes of a frame, and what a receiver makes of the bytes
that have arrived for one frame. -/

namespace Sys2Proof.Machine

/-! ### The check code (R201) -/

/-- One bit of the division by x^16 + x^12 + x^5 + 1. -/
def crcShift (reg : BitVec 16) : BitVec 16 :=
  if reg.msb then (reg <<< 1) ^^^ 0x1021#16 else reg <<< 1

/-- One byte, most significant bit first. -/
def crcByte (reg : BitVec 16) (b : Byte) : BitVec 16 :=
  crcShift (crcShift (crcShift (crcShift (crcShift (crcShift (crcShift (crcShift (reg ^^^ (b.setWidth 16 <<< 8)))))))))

/-- The check code of a run of bytes: the register starts at all ones and is neither reflected nor inverted. -/
def crc16 (bs : Bytes) : BitVec 16 :=
  bs.foldl crcByte 0xFFFF#16

/-! ### Kinds (R200) -/

/-- Line chain kind COMMAND. -/
def kindCommand : Byte := 1
/-- Line chain kind ANSWER. -/
def kindAnswer : Byte := 2
/-- Line chain kind SEGMENT_REPORT. -/
def kindSegmentReport : Byte := 3
/-- Line chain kind SHELL_REPORT. -/
def kindShellReport : Byte := 4
/-- Line chain kind NOTICE. -/
def kindNotice : Byte := 5
/-- Head link kind CYCLE_MARK. -/
def kindCycleMark : Byte := 1
/-- Head link kind FIRE_ORDER. -/
def kindFireOrder : Byte := 2
/-- Head link kind SHOT_REPORT. -/
def kindShotReport : Byte := 3
/-- Head link kind MOTION_REPORT. -/
def kindMotionReport : Byte := 4
/-- The line computer's address (R154). -/
def lineComputer : Byte := 254
/-- The broadcast address (R154). -/
def broadcast : Byte := 255

/-! ### Frames as bytes (R200, R201) -/

/-- The bytes that the check code of a line chain frame covers: header and payload. -/
def lineBody (f : LineFrame) : Bytes :=
  [f.dest, f.source, f.kind, f.tag, byteOf f.payload.length] ++ f.payload

/-- A line chain frame byte for byte. -/
def lineBytes (f : LineFrame) : Bytes :=
  lineBody f ++ be16 (crc16 (lineBody f)).toNat

/-- The bytes that the check code of a head link frame covers. -/
def headBody (f : HeadFrame) : Bytes :=
  [f.node, f.kind, byteOf f.payload.length] ++ f.payload

/-- A head link frame byte for byte. -/
def headBytes (f : HeadFrame) : Bytes :=
  headBody f ++ be16 (crc16 (headBody f)).toNat

/-! ### Reception (R202) -/

/-- What a receiver makes of the bytes that have arrived for one frame. A discard carries the number of bytes received for the frame
and whether the receiver goes on to discard bytes until the line falls idle. -/
inductive LineReception where
  | nothing
  | frame (f : LineFrame)
  | discard (count : Nat) (resync : Bool)
deriving DecidableEq, Repr

/-- As `LineReception`, for the head link. -/
inductive HeadReception where
  | nothing
  | frame (f : HeadFrame)
  | discard (count : Nat) (resync : Bool)
deriving DecidableEq, Repr

/-- Reception of a line chain frame (R202). A length byte above 248 discards the frame at that byte, so five bytes have been received
for it (DEDUCED, log 15). -/
def receiveLine (bs : Bytes) : LineReception :=
  match bs with
  | [] => .nothing
  | dest :: source :: kind :: tag :: len :: rest =>
    if 248 < len.toNat then .discard 5 true
    else if rest.length < len.toNat + 2 then .discard bs.length false
    else
      let f : LineFrame := ⟨dest, source, kind, tag, rest.take len.toNat⟩
      if bytesToNat ((rest.drop len.toNat).take 2) = (crc16 (lineBody f)).toNat then .frame f
      else .discard (7 + len.toNat) false
  | _ => .discard bs.length false

/-- Reception of a head link frame (R202), as `receiveLine`; the header has three bytes. -/
def receiveHead (bs : Bytes) : HeadReception :=
  match bs with
  | [] => .nothing
  | node :: kind :: len :: rest =>
    if 248 < len.toNat then .discard 3 true
    else if rest.length < len.toNat + 2 then .discard bs.length false
    else
      let f : HeadFrame := ⟨node, kind, rest.take len.toNat⟩
      if bytesToNat ((rest.drop len.toNat).take 2) = (crc16 (headBody f)).toNat then .frame f
      else .discard (5 + len.toNat) false
  | _ => .discard bs.length false

end Sys2Proof.Machine
end

