-- ==== Sys2Proof/Machine/Arith.lean ====
section
/-! DEFINITION. The manual's arithmetic conventions (00_scope 0.4.2 to 0.4.4): rounding, comparison of times, counts and angles, and
saturation. -/

namespace Sys2Proof.Machine

/-- The quotient rounded to nearest, ties upward, which is away from zero for these operands (0.4.3). -/
def roundDiv (a b : Nat) : Nat :=
  (2 * a + b) / (2 * b)

/-- The quotient of a signed figure rounded to nearest, ties away from zero (0.4.3). -/
def roundDivInt (a : Int) (b : Nat) : Int :=
  if a < 0 then -(roundDiv a.natAbs b : Int) else (roundDiv a.natAbs b : Int)

/-- The quotient rounded up (0.4.3, R11). -/
def ceilDiv (a b : Nat) : Nat :=
  (a + b - 1) / b

/-- A count raised by one, saturating at the maximum of its field (0.4.4). -/
def satSucc (limit n : Nat) : Nat :=
  min limit (n + 1)

/-- A count raised by a number, saturating at 65535 (0.4.4). -/
def satAdd16 (n by_ : Nat) : Nat :=
  min 65535 (n + by_)

/-- The time `a` is earlier than the time `b`: the signed difference `b - a` is positive (0.4.2). -/
def earlier (a b : PartTime) : Bool :=
  decide (0 < (b - a).toInt)

/-- The signed difference of two encoder counts (0.4.2). -/
def countDiff (a b : Count) : Int :=
  (a - b).toInt

/-- The difference of two rotations read into -2048..2047 (0.4.2). -/
def angleDiff (a b : Angle) : Int :=
  (a - b).toInt

/-- The number of microseconds from one part time to a later one. -/
def elapsed (since now : PartTime) : Nat :=
  (now - since).toNat

/-- A part time a number of microseconds after another, modulo 2^32. -/
def later (t : PartTime) (us : Nat) : PartTime :=
  t + BitVec.ofNat 32 us

end Sys2Proof.Machine
end

