-- ==== Sys2Proof/Machine/State.lean ====
section
/-! DEFINITION. The state of the AK-718, block by block (00_scope 0.2), as plain data, and its value after reset. -/

namespace Sys2Proof.Machine

/-! ### Table Store (10_tables) -/

/-- A head table entry (R188). -/
structure HeadEntry where
  enabled   : Bool
  theta     : Nat
  distance  : Nat
  reference : Nat
  limit     : Nat
  threshold : Nat
deriving DecidableEq, Repr

/-- The tracking record (R190). -/
structure Tracking where
  nominal    : Nat
  gateDist   : Nat
  scaleLimit : Nat
  gapLimit   : Nat
  hold       : Nat
  filterTime : Nat
deriving DecidableEq, Repr

/-- A product table entry (R191). -/
structure Product where
  nominalWall : Nat
  lowerTol    : Nat
  upperTol    : Nat
  grade       : Nat
  sectors     : Nat
  segLength   : Nat
  wallLo      : Nat
  wallHi      : Nat
  ampMin      : Nat
  repeatTol   : Nat
  minShots    : Nat
  eccLimit    : Nat
  eccSegLimit : Nat
deriving DecidableEq, Repr

/-- One point of a grade curve: velocity and shrink (R192). -/
structure GradePoint where
  velocity : Nat
  shrink   : Nat
deriving DecidableEq, Repr

/-- One part of a grade curve: eleven points in ascending temperature (R192). -/
abbrev GradePart := Vector GradePoint 11

/-- One entry of the schedule list (R23, R194). -/
inductive ListEntry where
  /-- NONE: no fields. -/
  | none
  /-- SHOT: a firing point. -/
  | shot (offset : Nat) (head : Fin 8) (period phase : Nat) (profile : Fin 4) (steal : Bool)
  /-- END: the end of the cycle. -/
  | fin (offset : Nat)
deriving DecidableEq, Repr

/-- One part of the schedule list: eight entries (R194). -/
abbrev ListPart := Vector ListEntry 8

/-- A window profile (R195). -/
structure Profile where
  measure   : Nat
  calibrate : Nat
deriving DecidableEq, Repr

/-- The calibration setup (R196): interval in seconds, 0 for off, and the defer flag. -/
structure CalSetup where
  interval : Nat
  defer    : Bool
deriving DecidableEq, Repr

/-- TST: the ten tables (R183). An entry is loaded when it is present. -/
structure Tst where
  heads    : Vector (Option HeadEntry) 8
  tracking : Option Tracking
  products : Vector (Option Product) 16
  grades   : Vector (Option GradePart) 24
  header   : Option Nat
  lists    : Vector (Option ListPart) 6
  profiles : Vector (Option Profile) 4
  calSetup : Option CalSetup
  pattern  : Option (BitVec 16)
  share    : Option Nat
deriving DecidableEq, Repr

/-! ### Head Link Port (11.2) -/

/-- HLP: the transmit queue, its front the frame in transmission (R205), and whether the receiver is discarding bytes until the
line falls idle (R202, R161). -/
structure Hlp where
  queue      : List HeadFrame
  discarding : Bool
deriving DecidableEq, Repr

/-! ### Firing Scheduler (02_firing_schedule) -/

/-- The schedule state (2.2). -/
inductive ScheduleState where
  | stopped
  | running
  | stopping
  | halted
deriving DecidableEq, Repr

/-- The schedule condition level (R45). -/
inductive Level where
  | clean
  | short
  | headLost
  | config
deriving DecidableEq, Repr

/-- The kind of a fire (R34). -/
inductive FireKind where
  | measure
  | calibrate
deriving DecidableEq, Repr

/-- The outstanding-fire record of a head (R36). `round` is the serial number of the round in which the fire was issued. -/
inductive FireRecord where
  | idle
  | outstanding (seq : Byte) (kind : FireKind) (expiry : PartTime) (round : Nat)
  | expired (seq : Byte) (kind : FireKind)
deriving DecidableEq, Repr

/-- The tally of one round (R43). -/
structure Tally where
  round    : Nat
  issued   : Nat
  resolved : Nat
  misses   : Nat
  skips    : Nat
  ended    : Bool
deriving DecidableEq, Repr

/-- FSC (R47). `cycleStart` is the start time t_s of the cycle in progress (R31), `place` the first list entry that the cycle has
not yet passed and `round` the serial number of the newest round (log 19). -/
structure Fsc where
  state      : ScheduleState
  cycleCount : Nat
  cycleStart : PartTime
  place      : Nat
  round      : Nat
  records    : Vector FireRecord 8
  seqs       : Vector Byte 8
  tallies    : List Tally
  lastShort  : Bool
  level      : Level
deriving DecidableEq, Repr

/-! ### Head Condition Unit (03_head_condition_and_calibration) -/

/-- The state of a head (R48). -/
inductive HeadState where
  | disabled
  | active
  | lost
deriving DecidableEq, Repr

/-- The calibration state of a head (R65). -/
inductive CalState where
  | never
  | ok
  | clamped
  | failed
deriving DecidableEq, Repr

/-- The head record (R48). The history's newest outcome stands in bit 0; `usable` is the health. -/
structure HeadRecord where
  state   : HeadState
  miss    : Nat
  history : BitVec 4
  usable  : Bool
  k       : Nat
  cal     : CalState
deriving DecidableEq, Repr

/-- The calibration timer while armed: the part time of arming and the armed interval in seconds (R48, R58). -/
structure CalTimer where
  since    : PartTime
  interval : Nat
deriving DecidableEq, Repr

/-- HCU (R48, R66). -/
structure Hcu where
  heads   : Vector HeadRecord 8
  request : Option (Fin 8)
  pointer : Fin 8
  timer   : Option CalTimer
deriving DecidableEq, Repr

/-! ### Motion Tracker (04_shell_tracking) -/

/-- A held motion sample (R67). -/
structure Sample where
  tau : PartTime
  enc : Count
  rho : Angle
deriving DecidableEq, Repr

/-- The states of a live shell context (R75). FREE is the absence of a context. -/
inductive Phase where
  | entering
  | measuring
  | tailing
  | closing
deriving DecidableEq, Repr

/-- The flags of a shell context (R75). -/
structure ShellFlags where
  unannounced      : Bool
  trackDeviation   : Bool
  scaleNominal     : Bool
  gateBMissed      : Bool
  gateTimeClamped  : Bool
  noProduct        : Bool
  noGrade          : Bool
  degradedHeads    : Bool
deriving DecidableEq, Repr

/-- The ten reason counts (R134). -/
structure Reasons where
  good          : Nat
  noEcho        : Nat
  noPair        : Nat
  noTemperature : Nat
  lowEnergy     : Nat
  late          : Nat
  windowFull    : Nat
  outOfRange    : Nat
  withheld      : Nat
  noProduct     : Nat
deriving DecidableEq, Repr

/-- The least wall of a shell with its place (R133). -/
structure MinWall where
  wall    : Nat
  segment : Nat
  sector  : Nat
  x       : Nat
deriving DecidableEq, Repr

/-- A figure of a shell with the segment that gave it (R133: max wall, max eccentricity). -/
structure SegFigure where
  value   : Nat
  segment : Nat
deriving DecidableEq, Repr

/-- The shell summary (R133). -/
structure Summary where
  reported    : Nat
  missing     : Nat
  lost        : Nat
  earlyClosed : Nat
  thin        : Nat
  thick       : Nat
  eccentric   : Nat
  minWall     : Option MinWall
  maxWall     : Option SegFigure
  maxEcc      : Option SegFigure
  reasons     : Reasons
deriving DecidableEq, Repr

/-- A live shell context (R75), with the close boundary (R117) and the summary that WMB keeps in it. -/
structure ShellContext where
  phase    : Phase
  shell    : Nat
  product  : Fin 16
  grade    : Option (Fin 8)
  encA     : Count
  rhoA     : Angle
  scale    : Nat
  encTail  : Option Count
  length   : Option Nat
  heldTemp : Option Nat
  boundary : Nat
  summary  : Summary
  flags    : ShellFlags
deriving DecidableEq, Repr

/-- A pending change of a gate filter: the part time at which it began and the filter time read then (R73). -/
structure PendingChange where
  since      : PartTime
  filterTime : Nat
deriving DecidableEq, Repr

/-- A gate filter (R73) with the level of its line (R210). -/
structure GateFilter where
  line    : Bool
  settled : Bool
  pending : Option PendingChange
deriving DecidableEq, Repr

/-- MTR (R90). A FREE context is `none`; `older` is the slot of the older live context (R75). -/
structure Mtr where
  history      : List Sample
  contexts     : Vector (Option ShellContext) 2
  older        : Fin 2
  shellCounter : Nat
  lastProduct  : Option (Fin 16)
  announce     : List (Fin 16)
  gateA        : GateFilter
  gateB        : GateFilter
deriving DecidableEq, Repr

/-! ### Resolution Queue (05_the_resolution_queue) -/

/-- An echo: its time in half-nanoseconds and its amplitude (R91). -/
structure Echo where
  time : Nat
  amp  : Nat
deriving DecidableEq, Repr

/-- A shot item (R91). `temp` is the temperature field as reported (R6 reads it). -/
structure Shot where
  head      : Fin 8
  time      : PartTime
  seq       : Byte
  temp      : Nat
  energyLow : Bool
  echoes    : List Echo
deriving DecidableEq, Repr

/-- A gate item (R91). -/
structure GateEdge where
  line : GateLine
  rise : Bool
  date : PartTime
deriving DecidableEq, Repr

/-- An item of the resolution queue (R91). -/
inductive Item where
  | shot (x : Shot)
  | gate (g : GateEdge)
deriving DecidableEq, Repr

/-- RSQ: the held items in queue order (R92). -/
structure Rsq where
  items : List Item
deriving DecidableEq, Repr

/-! ### Wall Map Builder (06_wall_map) -/

/-- A zone that holds at least one shot (R108). -/
structure Zone where
  n    : Nat
  sum  : Nat
  min  : Nat
  xMin : Nat
  max  : Nat
deriving DecidableEq, Repr

/-- An open segment record (R107). An empty zone is `none`. -/
structure OpenSegment where
  slot    : Fin 2
  shell   : Nat
  index   : Nat
  sectors : Nat
  zones   : List (Option Zone)
deriving DecidableEq, Repr

/-- WMB: the segment window (R107). Its order is not observable (log 20). -/
structure Wmb where
  window : List OpenSegment
deriving DecidableEq, Repr

/-! ### Result Queue (08_line_chain_and_result_delivery) -/

/-- The five verdict flags of a segment (R131). -/
structure VerdictFlags where
  thin       : Bool
  thick      : Bool
  eccentric  : Bool
  sparse     : Bool
  earlyClose : Bool
deriving DecidableEq, Repr

/-- A zone record of a segment report (R132). -/
structure ZoneReport where
  n    : Nat
  mean : Nat
  min  : Nat
  max  : Nat
deriving DecidableEq, Repr

/-- A segment report (R132). An UNKNOWN eccentricity is `none`. -/
structure SegmentReport where
  shell     : Nat
  index     : Nat
  product   : Nat
  sectors   : Nat
  verdict   : VerdictFlags
  valid     : Nat
  ecc       : Option Nat
  min       : Nat
  minSector : Nat
  minX      : Nat
  max       : Nat
  maxSector : Nat
  zones     : List ZoneReport
deriving DecidableEq, Repr

/-- The verdict of a shell (R136). -/
inductive ShellVerdict where
  | accept
  | reject
  | unverified
deriving DecidableEq, Repr

/-- A shell report (R137). -/
structure ShellReport where
  shell   : Nat
  verdict : ShellVerdict
  flags   : ShellFlags
  product : Nat
  grade   : Option (Fin 8)
  length  : Nat
  scale   : Nat
  summary : Summary
deriving DecidableEq, Repr

/-- An entry of the result queue (R140). -/
inductive Report where
  | segment (r : SegmentReport)
  | shell (r : ShellReport)
deriving DecidableEq, Repr

/-- The notice set (R146), one bit per kind. -/
structure Notices where
  levelChange    : Bool
  headLost       : Bool
  headBack       : Bool
  calOverrun     : Bool
  calClamped     : Bool
  captureHeld    : Bool
  scheduleHalted : Bool
deriving DecidableEq, Repr

/-- RQU (R148). -/
structure Rqu where
  entries      : List Report
  reservations : Nat
  notices      : Notices
  tag          : Byte
deriving DecidableEq, Repr

/-! ### Line Chain Port (08_line_chain_and_result_delivery) -/

/-- LCP (R160). A transmitter that is idle is `none`. -/
structure Lcp where
  address        : Byte
  down           : List LineFrame
  up             : List LineFrame
  slot           : Option LineFrame
  share          : Nat
  upTx           : Option LineFrame
  downTx         : Option LineFrame
  upDiscarding   : Bool
  downDiscarding : Bool
deriving DecidableEq, Repr

/-! ### Command Unit (09_commands) -/

/-- How far the answer of a pending RESTART has gone (R178; log 13). -/
inductive AnswerProgress where
  /-- in the answer slot -/
  | waiting
  /-- chosen by the arbiter, in transmission -/
  | sending
  /-- its last byte has been sent, and another event has been taken first -/
  | sent
deriving DecidableEq, Repr

/-- The command state (R162). -/
inductive CmuState where
  | idle
  | restartPending (answer : AnswerProgress)
deriving DecidableEq, Repr

/-- The capture kinds, in the order of R175. -/
inductive CaptureKind where
  | triggerSkip
  | lateReply
  | unsolicited
  | motionOrder
  | untracked
  | outOfRange
  | gateUnconfigured
  | gateSequence
  | duplicateShot
  | staleShot
  | resolveOverflow
  | gateOverflow
  | resultOverflow
  | lineFrameCheck
  | unknownKind
  | forwardOverflow
  | headFrameCheck
  | malformedShot
  | commandOverrun
deriving DecidableEq, Repr

/-- The source of an anomaly (R172). -/
inductive CaptureSource where
  | head (h : Fin 8)
  | headLink
  | upstream
  | downstream
  | gates
deriving DecidableEq, Repr

/-- The four fields of a HELD capture record (R172). -/
structure Anomaly where
  kind   : CaptureKind
  source : CaptureSource
  time   : PartTime
  detail : Nat
deriving DecidableEq, Repr

/-- CMU (R181). The capture record is EMPTY when `capture` is `none`. -/
structure Cmu where
  state    : CmuState
  capture  : Option Anomaly
  more     : Bool
  scratch0 : BitVec 16
  scratch1 : BitVec 16
deriving DecidableEq, Repr

/-! ### The whole part -/

/-- The claimants of the upstream transmitter (R157). -/
inductive Claimant where
  | answer
  | notices
  | forwarded
  | results
deriving DecidableEq, Repr

/-- The state of the part. `rstHigh` is the level of RST (R211), `freeCount` the number of free values consumed (log 9),
`ready` the claimant of the upstream transmitter that became ready first within the step being taken (R157; the model's own, log 26), and
`pending` the commands that wait, first in first out. -/
structure State where
  partTime  : PartTime
  rstHigh   : Bool
  hlp       : Hlp
  fsc       : Fsc
  hcu       : Hcu
  mtr       : Mtr
  rsq       : Rsq
  wmb       : Wmb
  rqu       : Rqu
  lcp       : Lcp
  cmu       : Cmu
  tst       : Tst
  freeCount : Nat
  ready     : Option Claimant
  pending   : List Instr
deriving DecidableEq, Repr

/-- The reasons for which a step stops with a fault: none. The spec names no event that stops the part (log 23), so the type has no
constructor, and no meaning can answer with a fault. -/
inductive Fault
deriving DecidableEq, Repr

/-- The reasons for which a step is refused. -/
inductive Refusal where
  /-- Raised by an arm of `exec` whose command has no meaning yet; safe. No arm of this model raises it. -/
  | notModelled (mnemonic : String)
deriving DecidableEq, Repr

/-- TST after cold reset: every entry unloaded (R198). -/
def Tst.reset : Tst where
  heads    := Vector.replicate 8 none
  tracking := none
  products := Vector.replicate 16 none
  grades   := Vector.replicate 24 none
  header   := none
  lists    := Vector.replicate 6 none
  profiles := Vector.replicate 4 none
  calSetup := none
  pattern  := none
  share    := none

/-- FSC after cold reset (R47). -/
def Fsc.reset : Fsc where
  state      := .stopped
  cycleCount := 0
  cycleStart := 0
  place      := 0
  round      := 0
  records    := Vector.replicate 8 .idle
  seqs       := Vector.replicate 8 0
  tallies    := []
  lastShort  := false
  level      := .clean

/-- A head record after cold reset (R66). -/
def HeadRecord.reset : HeadRecord where
  state   := .disabled
  miss    := 0
  history := 15
  usable  := true
  k       := 65536
  cal     := .never

/-- HCU after cold reset (R66). -/
def Hcu.reset : Hcu where
  heads   := Vector.replicate 8 HeadRecord.reset
  request := none
  pointer := 0
  timer   := none

/-- A gate filter settled at its line's level (R90). -/
def GateFilter.settledAt (level : Bool) : GateFilter where
  line    := level
  settled := level
  pending := none

/-- MTR after cold reset with the given levels of the two gate lines (R90). -/
def Mtr.reset (lineA lineB : Bool) : Mtr where
  history      := []
  contexts     := Vector.replicate 2 none
  older        := 0
  shellCounter := 1
  lastProduct  := none
  announce     := []
  gateA        := GateFilter.settledAt lineA
  gateB        := GateFilter.settledAt lineB

/-- The empty notice set. -/
def Notices.empty : Notices := ⟨false, false, false, false, false, false, false⟩

/-- RQU after either reset (R148). -/
def Rqu.reset : Rqu where
  entries      := []
  reservations := 0
  notices      := Notices.empty
  tag          := 0

/-- LCP after cold reset (R160, R161), with the receivers' footing. -/
def Lcp.reset (upDiscarding downDiscarding : Bool) : Lcp where
  address        := 0
  down           := []
  up             := []
  slot           := none
  share          := 0
  upTx           := none
  downTx         := none
  upDiscarding   := upDiscarding
  downDiscarding := downDiscarding

/-- CMU after cold reset (R181). -/
def Cmu.reset : Cmu where
  state    := .idle
  capture  := none
  more     := false
  scratch0 := 0
  scratch1 := 0

/-- The part right after a cold reset and the rise of RST (R182, R211), with both gate lines low, no receiver inside a frame and
the part time at 0. DESIGN CHOICE (unsafe): the lines' levels and RST (log 6), the part time (log 5), the receivers (log 8) and the
model's own fields (log 9, log 19, log 26); every other field is the spec's cold reset value. -/
def State.reset : State where
  partTime  := 0
  rstHigh   := true
  hlp       := ⟨[], false⟩
  fsc       := Fsc.reset
  hcu       := Hcu.reset
  mtr       := Mtr.reset false false
  rsq       := ⟨[]⟩
  wmb       := ⟨[]⟩
  rqu       := Rqu.reset
  lcp       := Lcp.reset false false
  cmu       := Cmu.reset
  tst       := Tst.reset
  freeCount := 0
  ready     := none
  pending   := []

end Sys2Proof.Machine
end

