-- ==== Sys2Proof/Machine/Ops.lean ====
section
/-! DEFINITION. Named access to the state: one update per block, the records of heads and shell contexts, and the tables as the
blocks read them. -/

namespace Sys2Proof.Machine

/-! ### One update per block -/

def State.setTime (s : State) (t : PartTime) : State := { s with partTime := t }
def State.setRst (s : State) (high : Bool) : State := { s with rstHigh := high }
def State.setHlp (s : State) (x : Hlp) : State := { s with hlp := x }
def State.setFsc (s : State) (x : Fsc) : State := { s with fsc := x }
def State.setHcu (s : State) (x : Hcu) : State := { s with hcu := x }
def State.setMtr (s : State) (x : Mtr) : State := { s with mtr := x }
def State.setRsq (s : State) (x : Rsq) : State := { s with rsq := x }
def State.setWmb (s : State) (x : Wmb) : State := { s with wmb := x }
def State.setRqu (s : State) (x : Rqu) : State := { s with rqu := x }
def State.setLcp (s : State) (x : Lcp) : State := { s with lcp := x }
def State.setCmu (s : State) (x : Cmu) : State := { s with cmu := x }
def State.setTst (s : State) (x : Tst) : State := { s with tst := x }
def State.setFree (s : State) (n : Nat) : State := { s with freeCount := n }
def State.setReady (s : State) (x : Option Claimant) : State := { s with ready := x }
def State.setPending (s : State) (q : List Instr) : State := { s with pending := q }

/-- A claimant of the upstream transmitter becomes ready; the first to do so within a step is the one remembered (R157; log 26). -/
def State.claim (s : State) (c : Claimant) : State :=
  s.setReady (s.ready.or (some c))

/-! ### Heads -/

/-- The head indices in ascending order. -/
def allHeads : List (Fin 8) := [0, 1, 2, 3, 4, 5, 6, 7]

/-- HCU's record of a head (R48). -/
def State.head (s : State) (h : Fin 8) : HeadRecord :=
  s.hcu.heads[h]

/-- The state with HCU's record of a head replaced. -/
def State.setHead (s : State) (h : Fin 8) (r : HeadRecord) : State :=
  s.setHcu { s.hcu with heads := s.hcu.heads.set h r }

/-- FSC's outstanding-fire record of a head (R36). -/
def State.fire (s : State) (h : Fin 8) : FireRecord :=
  s.fsc.records[h]

/-- The state with a head's outstanding-fire record replaced. -/
def State.setFire (s : State) (h : Fin 8) (r : FireRecord) : State :=
  s.setFsc { s.fsc with records := s.fsc.records.set h r }

/-! ### Tables as the blocks read them -/

/-- An unloaded head entry reads as all fields 0 with the enabled flag clear (R188). -/
def HeadEntry.unloaded : HeadEntry := ⟨false, 0, 0, 0, 0, 0⟩

/-- An unloaded tracking record reads as all fields 0 (R197); its filter time counts as 0 (R73). -/
def Tracking.unloaded : Tracking := ⟨0, 0, 0, 0, 0, 0⟩

/-- An unloaded product entry reads as all fields 0 (R197). -/
def Product.unloaded : Product := ⟨0, 0, 0, 0, 0, 0, 0, 0, 0, 0, 0, 0, 0⟩

/-- An unloaded grade part reads as eleven points of zeros (R193, R197). -/
def GradePart.unloaded : GradePart := Vector.replicate 11 ⟨0, 0⟩

/-- An unloaded list part reads as eight NONE entries (R194). -/
def ListPart.unloaded : ListPart := Vector.replicate 8 .none

/-- The head table entry in force (R188). -/
def State.headEntry (s : State) (h : Fin 8) : HeadEntry :=
  s.tst.heads[h].getD HeadEntry.unloaded

/-- A head is enabled when its entry is loaded and carries the enabled flag (R48). -/
def State.enabled (s : State) (h : Fin 8) : Bool :=
  (s.headEntry h).enabled

/-- The tracking record in force (R190). -/
def State.track (s : State) : Tracking :=
  s.tst.tracking.getD Tracking.unloaded

/-- The product entry of an index (R191). -/
def State.productEntry (s : State) (p : Fin 16) : Product :=
  s.tst.products[p].getD Product.unloaded

/-- The grade part of an index, as a reading block sees it (R193). -/
def State.gradePart (s : State) (i : Nat) : GradePart :=
  (s.tst.grades[i]?.join).getD GradePart.unloaded

/-- A curve is complete while its three parts are loaded (R193). -/
def Tst.curveComplete (x : Tst) (curve : Nat) : Bool :=
  (x.grades[3 * curve]?.join).isSome && (x.grades[3 * curve + 1]?.join).isSome
    && (x.grades[3 * curve + 2]?.join).isSome

/-- The 33 points of a curve in ascending temperature (R192). -/
def State.curvePoints (s : State) (curve : Nat) : List GradePoint :=
  (s.gradePart (3 * curve)).toList ++ (s.gradePart (3 * curve + 1)).toList ++ (s.gradePart (3 * curve + 2)).toList

/-- The 48 entries of the schedule list; an unloaded part counts as eight NONE entries (R23, R194). -/
def State.scheduleList (s : State) : List ListEntry :=
  s.tst.lists.toList.flatMap fun part => (part.getD ListPart.unloaded).toList

/-- The calibration setup in force; while unloaded the interval counts as 0 and the defer flag as clear (R58). -/
def State.calSetup (s : State) : CalSetup :=
  s.tst.calSetup.getD ⟨0, false⟩

/-- The health pattern in force; the default pattern marks USABLE every history with at least two good outcomes (R55). -/
def State.pattern (s : State) : BitVec 16 :=
  s.tst.pattern.getD 0xFEE8#16

/-- The output share F in force; while unloaded F counts as 1 (R158). -/
def State.share (s : State) : Nat :=
  s.tst.share.getD 1

/-- P_max, the largest P_h among the enabled heads, or 0 if none is enabled (R85). -/
def State.pMax (s : State) : Nat :=
  allHeads.foldl (fun m h => if s.enabled h then max m (s.headEntry h).distance else m) 0

/-! ### Shell contexts (R75) -/

/-- The context of a slot; `none` is FREE. -/
def State.ctx (s : State) (i : Fin 2) : Option ShellContext :=
  s.mtr.contexts[i]

/-- The state with the context of a slot replaced. -/
def State.setCtx (s : State) (i : Fin 2) (c : Option ShellContext) : State :=
  s.setMtr { s.mtr with contexts := s.mtr.contexts.set i c }

/-- The state with a live context replaced through a function. -/
def State.modCtx (s : State) (i : Fin 2) (f : ShellContext → ShellContext) : State :=
  s.setCtx i ((s.ctx i).map f)

/-- The state with every live context replaced through a function. -/
def State.mapCtx (s : State) (f : ShellContext → ShellContext) : State :=
  (s.modCtx 0 f).modCtx 1 f

/-- The other slot. -/
def otherSlot (i : Fin 2) : Fin 2 := if i = 0 then 1 else 0

/-- The two slots, the older context's first (R75). -/
def State.slots (s : State) : List (Fin 2) :=
  [s.mtr.older, otherSlot s.mtr.older]

/-- Some context satisfies a test. -/
def State.anyCtx (s : State) (p : ShellContext → Bool) : Bool :=
  (s.ctx 0).any p || (s.ctx 1).any p

/-- The context is ENTERING or MEASURING (R77, R83). -/
def ShellContext.beforeTail (c : ShellContext) : Bool :=
  c.phase == .entering || c.phase == .measuring

/-- The context is MEASURING or TAILING: shots may lie on it, and calibration may be deferred by it (R34, R86). -/
def ShellContext.holdsShots (c : ShellContext) : Bool :=
  c.phase == .measuring || c.phase == .tailing

/-- A product entry is bound to the context: it was loaded at the shell's entry (R78, R186). -/
def ShellContext.productBound (c : ShellContext) : Bool :=
  !c.flags.noProduct

/-- A grade curve is bound to the context: it was complete at the shell's entry (R78, R186). -/
def ShellContext.curveBound (c : ShellContext) : Bool :=
  !c.flags.noProduct && !c.flags.noGrade

/-- Either context is live (R189, R190). -/
def State.someLive (s : State) : Bool :=
  s.anyCtx fun _ => true

/-- The number of live contexts. -/
def State.liveCount (s : State) : Nat :=
  (if (s.ctx 0).isSome then 1 else 0) + (if (s.ctx 1).isSome then 1 else 0)

end Sys2Proof.Machine
end

