-- ==== Sys2Proof/Machine/Flags.lean ====
section
/-! DEFINITION. The notice set, the capture record and the schedule condition level: the flags that every block raises (R45, R146,
R173). -/

namespace Sys2Proof.Machine

/-! ### The notice set (R146) -/

/-- A kind is raised: a kind that is already pending does not change the set (R146), which claims the upstream transmitter (R157). -/
def State.raiseLevelChange (s : State) : State :=
  (s.setRqu { s.rqu with notices := { s.rqu.notices with levelChange := true } }).claim .notices
def State.raiseHeadLost (s : State) : State :=
  (s.setRqu { s.rqu with notices := { s.rqu.notices with headLost := true } }).claim .notices
def State.raiseHeadBack (s : State) : State :=
  (s.setRqu { s.rqu with notices := { s.rqu.notices with headBack := true } }).claim .notices
def State.raiseCalOverrun (s : State) : State :=
  (s.setRqu { s.rqu with notices := { s.rqu.notices with calOverrun := true } }).claim .notices
def State.raiseCalClamped (s : State) : State :=
  (s.setRqu { s.rqu with notices := { s.rqu.notices with calClamped := true } }).claim .notices
def State.raiseCaptureHeld (s : State) : State :=
  (s.setRqu { s.rqu with notices := { s.rqu.notices with captureHeld := true } }).claim .notices
def State.raiseScheduleHalted (s : State) : State :=
  (s.setRqu { s.rqu with notices := { s.rqu.notices with scheduleHalted := true } }).claim .notices

/-! ### The capture record (R172, R173) -/

/-- An anomaly is reported: it fills an EMPTY record and raises CAPTURE_HELD, or sets MORE on a HELD one (R173). -/
def State.report (s : State) (kind : CaptureKind) (source : CaptureSource) (time : PartTime) (detail : Nat) : State :=
  match s.cmu.capture with
  | none => (s.setCmu { s.cmu with capture := some ⟨kind, source, time, detail⟩ }).raiseCaptureHeld
  | some _ => s.setCmu { s.cmu with more := true }

/-- The detail of a gate anomaly: 256 times the line plus the direction (R174). -/
def gateDetail (line : GateLine) (rise : Bool) : Nat :=
  (match line with | .a => 0 | .b => 256) + (if rise then 1 else 0)

/-! ### The schedule condition level (R45) -/

/-- The level that the inputs of R45 give. -/
def State.levelOf (s : State) : Level :=
  if s.fsc.state = .halted then .config
  else if allHeads.any (fun h => s.enabled h && (s.head h).state == .lost) then .headLost
  else if s.fsc.lastShort then .short
  else .clean

/-- FSC recomputes the level; a value different from the level held raises LEVEL_CHANGE (R45). -/
def State.recomputeLevel (s : State) : State :=
  if s.levelOf = s.fsc.level then s
  else (s.setFsc { s.fsc with level := s.levelOf }).raiseLevelChange

end Sys2Proof.Machine
end

