-- ==== Sys2Proof/Machine/HeadCondition.lean ====
section
/-! DEFINITION. The Head Condition Unit (03_head_condition_and_calibration): miss counts and head states, outcome history and
health, timebase correction, calibration request, pointer and timer. -/

namespace Sys2Proof.Machine

/-! ### Outcome history and health (R53 to R55) -/

/-- The health that the pattern in force gives a history: USABLE is `true` (R55). -/
def State.healthOf (s : State) (history : BitVec 4) : Bool :=
  s.pattern.getLsbD history.toNat

/-- The history with an outcome shifted in (R54). -/
def shiftOutcome (history : BitVec 4) (good : Bool) : BitVec 4 :=
  (history <<< 1) ||| (if good then 1#4 else 0#4)

/-- HCU records one outcome of a head and recomputes its health (R54). -/
def State.recordOutcome (s : State) (h : Fin 8) (good : Bool) : State :=
  s.setHead h { s.head h with
    history := shiftOutcome (s.head h).history good
    usable  := s.healthOf (shiftOutcome (s.head h).history good) }

/-! ### The miss count and the LOST state (R50 to R52) -/

/-- The context with DEGRADED_HEADS (R52). -/
def ShellContext.degrade (c : ShellContext) : ShellContext :=
  { c with flags := { c.flags with degradedHeads := true } }

/-- Every live context receives DEGRADED_HEADS (R52). -/
def State.degradeAll (s : State) : State :=
  s.mapCtx ShellContext.degrade

/-- Some head is LOST (R52). -/
def State.someLost (s : State) : Bool :=
  allHeads.any fun h => (s.head h).state == .lost

/-- After a change of its miss count, the head's state follows (R51); a transition marks contexts (R52), raises its notice and
recomputes the level (R45). -/
def State.judgeMiss (s : State) (h : Fin 8) : State :=
  match (s.head h).state with
  | .disabled => s
  | .active =>
    if (s.head h).miss = 7 then
      ((s.setHead h { s.head h with state := .lost }).raiseHeadLost).degradeAll.recomputeLevel
    else s
  | .lost =>
    if (s.head h).miss = 0 then
      ((s.setHead h { s.head h with state := .active }).raiseHeadBack).recomputeLevel
    else s

/-- A reply lowers the head's miss count, not below 0 (R50). -/
def State.replied (s : State) (h : Fin 8) : State :=
  (s.setHead h { s.head h with miss := (s.head h).miss - 1 }).judgeMiss h

/-- A miss raises the head's miss count, saturating at 7 (R50). -/
def State.missed (s : State) (h : Fin 8) : State :=
  (s.setHead h { s.head h with miss := satSucc 7 (s.head h).miss }).judgeMiss h

/-! ### The calibration request and the pointer (R59, R60, R62) -/

/-- A head index taken modulo 8. -/
def headAt (n : Nat) : Fin 8 := Fin.ofNat 8 n

/-- The first enabled head at or after a place, cyclically (R59, R62). -/
def State.firstEnabled (s : State) (start : Nat) : Option (Fin 8) :=
  ((List.range 8).map fun i => headAt (start + i)).find? s.enabled

/-- The calibration pointer after the calibration of a head (R62). -/
def State.pointerAfter (s : State) (h : Fin 8) : Fin 8 :=
  (s.firstEnabled (h.val + 1)).getD (headAt (h.val + 1))

/-- If the request names the head, it is cleared and the pointer moves on (R62 step 3, R49). -/
def State.releaseRequest (s : State) (h : Fin 8) : State :=
  if s.hcu.request = some h then s.setHcu { s.hcu with request := none, pointer := s.pointerAfter h } else s

/-! ### The calibration arithmetic (R63, R64) -/

/-- A correction clamped into 65536 +- limit (R57). -/
def clampK (limit k : Nat) : Nat :=
  max (65536 - limit) (min (65536 + limit) k)

/-- The correction and calibration state that a calibration reply gives (R63, R64). -/
def calibration (e : HeadEntry) (k : Nat) (energyLow : Bool) (echoes : List Echo) : Nat × CalState :=
  if energyLow then (k, .failed)
  else
    match echoes.filter (fun x => decide (e.threshold ≤ x.amp)) with
    | e0 :: e1 :: _ =>
      let kNew := roundDiv (65536 * e.reference) (e1.time - e0.time)
      (clampK e.limit kNew, if clampK e.limit kNew = kNew then .ok else .clamped)
    | _ => (k, .failed)

/-- A CALIBRATE fire of the head completes with the given correction and calibration state (R62). -/
def State.completeCalibration (s : State) (h : Fin 8) (k : Nat) (cal : CalState) : State :=
  let s1 := s.setHead h { s.head h with k := k, cal := cal }
  let s2 := (s1.recordOutcome h (cal != .failed)).releaseRequest h
  if cal = .clamped then s2.raiseCalClamped else s2

/-- The completion by a reply (R62, R63). -/
def State.calibrationReply (s : State) (h : Fin 8) (energyLow : Bool) (echoes : List Echo) : State :=
  let r := calibration (s.headEntry h) (s.head h).k energyLow echoes
  s.completeCalibration h r.1 r.2

/-- The completion by a miss: FAILED, the correction kept (R62). -/
def State.calibrationMiss (s : State) (h : Fin 8) : State :=
  s.completeCalibration h (s.head h).k .failed

/-! ### The calibration timer (R58, R59) -/

/-- The timer armed at a part time for an interval in seconds; an interval of 0 stops it (R58). -/
def armTimer (t : PartTime) (interval : Nat) : Option CalTimer :=
  if interval = 0 then none else some ⟨t, interval⟩

/-- The part time at which an armed timer expires (R58). -/
def CalTimer.expiry (x : CalTimer) : PartTime :=
  later x.since (x.interval * 1000000)

/-- An expiry acts according to the request (R59). -/
def State.timerRequest (s : State) : State :=
  match s.hcu.request with
  | some _ => s.raiseCalOverrun
  | none => s.setHcu { s.hcu with request := s.firstEnabled s.hcu.pointer.val }

/-- The calibration timer expires: it acts under R59 and is rearmed from the expiry's part time for the interval then held (R58).
A stopped timer does not expire. -/
def State.timerExpiry (s : State) : State :=
  match s.hcu.timer with
  | none => s
  | some x =>
    let s1 := (s.setTime x.expiry).timerRequest
    s1.setHcu { s1.hcu with timer := armTimer x.expiry s1.calSetup.interval }

/-- A write of the calibration setup arms a stopped timer and leaves an armed one (R58). -/
def State.setupWritten (s : State) (t : PartTime) : State :=
  match s.hcu.timer with
  | some _ => s
  | none => s.setHcu { s.hcu with timer := armTimer t s.calSetup.interval }

/-! ### The effect of a head table write (R49, R57, R189) -/

/-- The head record after a write of its entry, the entry already stored (R49). -/
def State.headStateWritten (s : State) (h : Fin 8) : State :=
  match (s.head h).state, s.enabled h with
  | .disabled, true =>
    s.setHead h { s.head h with state := .active, miss := 0, history := 15, usable := s.healthOf 15 }
  | .disabled, false => s
  | .active, true => s
  | .lost, true => s
  | .active, false => (s.setHead h { s.head h with state := .disabled }).releaseRequest h
  | .lost, false => (s.setHead h { s.head h with state := .disabled }).releaseRequest h

/-- The head's correction is clamped into the limit of its entry (R57). -/
def State.clampHead (s : State) (h : Fin 8) : State :=
  s.setHead h { s.head h with k := clampK (s.headEntry h).limit (s.head h).k }

/-- Steps 2 to 4 of an accepted head table write (R189). -/
def State.headWritten (s : State) (h : Fin 8) : State :=
  ((s.headStateWritten h).clampHead h).recomputeLevel

/-! ### Reset (R66) -/

/-- A head record after a restart (R66). -/
def State.headRestarted (s : State) (h : Fin 8) : HeadRecord :=
  { s.head h with
    state   := if s.enabled h then .active else .disabled
    miss    := 0
    history := 15
    usable  := s.healthOf 15 }

/-- HCU after a restart at part time `t` (R66). -/
def State.hcuRestarted (s : State) (t : PartTime) : Hcu where
  heads   := Vector.ofFn s.headRestarted
  request := none
  pointer := s.hcu.pointer
  timer   := armTimer t s.calSetup.interval

end Sys2Proof.Machine
end

