-- ==== Sys2Proof/Machine/Judgement.lean ====
section
/-! DEFINITION. Segment and shell judgement (07_segment_and_shell_judgement): the figures and flags of a closed segment, the fold
into the shell summary, and the shell's verdict. It keeps no state of its own (R139). -/

namespace Sys2Proof.Machine

/-! ### Judging a segment (R126 to R132) -/

/-- The mean of a zone that holds a shot (R127). -/
def zoneMean (z : Zone) : Nat := roundDiv z.sum z.n

/-- The means of the valid zones, in ascending sector (R127). -/
def validMeans (minShots : Nat) (zones : List (Option Zone)) : List Nat :=
  zones.filterMap fun z =>
    match z with
    | some z => if minShots ≤ z.n then some (zoneMean z) else none
    | none => none

/-- The least zone min with its sector and x; a later zone replaces it only when strictly below (R129). -/
def segmentMin (index sector : Nat) (held : Option MinWall) : List (Option Zone) → Option MinWall
  | [] => held
  | none :: rest => segmentMin index (sector + 1) held rest
  | some z :: rest =>
    match held with
    | none => segmentMin index (sector + 1) (some ⟨z.min, index, sector, z.xMin⟩) rest
    | some m =>
      if z.min < m.wall then segmentMin index (sector + 1) (some ⟨z.min, index, sector, z.xMin⟩) rest
      else segmentMin index (sector + 1) (some m) rest

/-- The greatest zone max with its sector, as a pair (R129). -/
def segmentMax (sector : Nat) (held : Option (Nat × Nat)) : List (Option Zone) → Option (Nat × Nat)
  | [] => held
  | none :: rest => segmentMax (sector + 1) held rest
  | some z :: rest =>
    match held with
    | none => segmentMax (sector + 1) (some (z.max, sector)) rest
    | some m =>
      if m.1 < z.max then segmentMax (sector + 1) (some (z.max, sector)) rest
      else segmentMax (sector + 1) (some m) rest

/-- The greatest of a list of figures. -/
def greatest (xs : List Nat) : Nat := xs.foldl max 0

/-- The least of a list of figures; 0 for an empty one. -/
def least : List Nat → Nat
  | [] => 0
  | x :: xs => xs.foldl min x

/-- The eccentricity of the valid means, in 0.1 % (R130). -/
def eccentricity (means : List Nat) : Nat :=
  if greatest means + least means = 0 then 0
  else roundDiv (2000 * (greatest means - least means)) (greatest means + least means)

/-- The eccentricity of a segment, UNKNOWN when it is SPARSE (R128, R130). -/
def segmentEcc (sectors : Nat) (means : List Nat) : Option Nat :=
  if means.length < sectors / 2 then none else some (eccentricity means)

/-- The verdict flags (R131). The thresholds are signed figures: a mean is below `nominal - lower` when `mean + lower < nominal`. -/
def segmentFlags (p : Product) (sectors : Nat) (means : List Nat) (early : Bool) : VerdictFlags where
  thin       := means.any fun m => decide (m + p.lowerTol < p.nominalWall)
  thick      := means.any fun m => decide (p.nominalWall + p.upperTol < m)
  eccentric  := (segmentEcc sectors means).any fun e => decide (p.eccLimit < e)
  sparse     := decide (means.length < sectors / 2)
  earlyClose := early

/-- The zone record of a report (R132). -/
def zoneReport : Option Zone → ZoneReport
  | none => ⟨0, 0, 0, 0⟩
  | some z => ⟨min 255 z.n, zoneMean z, z.min, z.max⟩

/-- The judgement of a closed segment against its product, as the report that carries it (R126 to R132). -/
def judge (p : Product) (product : Nat) (r : OpenSegment) (early : Bool) : SegmentReport :=
  let means := validMeans p.minShots r.zones
  let lo := (segmentMin r.index 0 none r.zones).getD ⟨0, r.index, 0, 0⟩
  let hi := (segmentMax 0 none r.zones).getD (0, 0)
  { shell := r.shell, index := r.index, product := product, sectors := r.sectors
    verdict := segmentFlags p r.sectors means early
    valid := means.length, ecc := segmentEcc r.sectors means
    min := lo.wall, minSector := lo.sector, minX := lo.x
    max := hi.1, maxSector := hi.2
    zones := r.zones.map zoneReport }

/-! ### The shell summary (R133, R134) -/

/-- The reasons that a shot handed to WMB can count (R110). -/
inductive Reason where
  | good
  | noEcho
  | noPair
  | noTemperature
  | lowEnergy
  | late
  | windowFull
  | withheld
  | noProduct
deriving DecidableEq, Repr

/-- No reason counted (R75). -/
def Reasons.zero : Reasons := ⟨0, 0, 0, 0, 0, 0, 0, 0, 0, 0⟩

/-- One reason count raised by one, saturating at 65535 (R110). -/
def Reasons.bump (r : Reasons) : Reason → Reasons
  | .good => { r with good := satSucc 65535 r.good }
  | .noEcho => { r with noEcho := satSucc 65535 r.noEcho }
  | .noPair => { r with noPair := satSucc 65535 r.noPair }
  | .noTemperature => { r with noTemperature := satSucc 65535 r.noTemperature }
  | .lowEnergy => { r with lowEnergy := satSucc 65535 r.lowEnergy }
  | .late => { r with late := satSucc 65535 r.late }
  | .windowFull => { r with windowFull := satSucc 65535 r.windowFull }
  | .withheld => { r with withheld := satSucc 65535 r.withheld }
  | .noProduct => { r with noProduct := satSucc 65535 r.noProduct }

/-- The summary at a context's entry (R133). -/
def Summary.zero : Summary where
  reported    := 0
  missing     := 0
  lost        := 0
  earlyClosed := 0
  thin        := 0
  thick       := 0
  eccentric   := 0
  minWall     := none
  maxWall     := none
  maxEcc      := none
  reasons     := Reasons.zero

/-- A count raised by one when a flag is set, saturating at 65535 (R133). -/
def countIf (flag : Bool) (n : Nat) : Nat :=
  if flag then satSucc 65535 n else n

/-- The min wall with a judged segment's, kept unless strictly below (R133). -/
def foldMin (held : Option MinWall) (r : SegmentReport) : Option MinWall :=
  match held with
  | some m => if r.min < m.wall then some ⟨r.min, r.index, r.minSector, r.minX⟩ else some m
  | none => some ⟨r.min, r.index, r.minSector, r.minX⟩

/-- A greatest figure with a judged segment's, kept unless strictly above (R133). -/
def foldMax (held : Option SegFigure) (value index : Nat) : Option SegFigure :=
  match held with
  | some m => if m.value < value then some ⟨value, index⟩ else some m
  | none => some ⟨value, index⟩

/-- The fold of a judged segment into the summary (R133). -/
def Summary.fold (x : Summary) (r : SegmentReport) : Summary :=
  { x with
    earlyClosed := countIf r.verdict.earlyClose x.earlyClosed
    thin        := countIf r.verdict.thin x.thin
    thick       := countIf r.verdict.thick x.thick
    eccentric   := countIf r.verdict.eccentric x.eccentric
    minWall     := foldMin x.minWall r
    maxWall     := foldMax x.maxWall r.max r.index
    maxEcc      := match r.ecc with
      | some e => foldMax x.maxEcc e r.index
      | none => x.maxEcc }

/-! ### The shell verdict and report (R123, R134, R136, R137) -/

/-- The missing segments toward the tail: the indices from the close boundary to the smaller of K and 1023 (R123). -/
def tailMissing (bound : Bool) (length segLength boundary : Nat) : Nat :=
  if bound && decide (1 ≤ length) then min ((length - 1) / segLength) 1023 + 1 - boundary else 0

/-- The number of segment indices beyond 1023 (R134). -/
def beyondRange (bound : Bool) (length segLength : Nat) : Nat :=
  if bound && decide (1 ≤ length) then min 65535 ((length - 1) / segLength - 1023) else 0

/-- The shell verdict, by the first row that applies (R136). -/
def shellVerdict (bound : Bool) (eccSegLimit : Nat) (x : Summary) (f : ShellFlags) : ShellVerdict :=
  if 0 < x.thin ∨ 0 < x.thick then .reject
  else if bound = true ∧ 1 ≤ eccSegLimit ∧ eccSegLimit ≤ 1023 ∧ eccSegLimit ≤ x.eccentric then .reject
  else if 0 < x.lost ∨ 0 < x.missing ∨ f.noProduct ∨ f.noGrade ∨ f.degradedHeads then .unverified
  else .accept

/-- The summary as the shell report carries it: the tail's missing indices and the OUT_OF_RANGE count are set (R123, R134). -/
def Summary.atEnd (x : Summary) (bound : Bool) (length segLength boundary : Nat) : Summary :=
  { x with
    missing := satAdd16 x.missing (tailMissing bound length segLength boundary)
    reasons := { x.reasons with outOfRange := beyondRange bound length segLength } }

/-- The shell report of a context that has closed its last segment (R137). -/
def shellReport (p : Product) (c : ShellContext) : ShellReport :=
  let x := c.summary.atEnd c.productBound (c.length.getD 0) p.segLength c.boundary
  { shell := c.shell
    verdict := shellVerdict c.productBound p.eccSegLimit x c.flags
    flags := c.flags
    product := c.product.val
    grade := c.grade
    length := c.length.getD 0
    scale := c.scale
    summary := x }

end Sys2Proof.Machine
end

