-- ==== Sys2Proof/Machine/ResultQueue.lean ====
section
/-! DEFINITION. The Result Queue's entries and reservations (08_line_chain_and_result_delivery, R140 to R144). -/

namespace Sys2Proof.Machine

/-- The entry is a segment report. -/
def Report.isSegment : Report → Bool
  | .segment _ => true
  | .shell _ => false

/-- The shell number of an entry (R144). -/
def Report.shellNumber : Report → Nat
  | .segment r => r.shell
  | .shell r => r.shell

/-- The number of segment reports held (R140). -/
def Rqu.segments (q : Rqu) : Nat := q.entries.countP Report.isSegment

/-- The number of shell reports held (R140). -/
def Rqu.shells (q : Rqu) : Nat := q.entries.countP fun r => !r.isSegment

/-- An offered segment report is refused: 62 are held, or entries held plus reservations fill the queue (R142; log 16). -/
def Rqu.refuses (q : Rqu) : Bool :=
  decide (62 ≤ q.segments) || decide (64 ≤ q.entries.length + q.reservations)

/-- An accepted segment report is inserted at the tail and claims the upstream transmitter, a refused one is discarded (R142, R157). -/
def State.offerSegment (s : State) (r : SegmentReport) : State :=
  if s.rqu.refuses then s else (s.setRqu { s.rqu with entries := s.rqu.entries ++ [.segment r] }).claim .results

/-- A shell report is inserted into the room its reservation held, and claims the upstream transmitter (R141, R143, R157). -/
def State.queueShellReport (s : State) (r : ShellReport) : State :=
  (s.setRqu { s.rqu with
    entries := s.rqu.entries ++ [.shell r]
    reservations := s.rqu.reservations - 1 }).claim .results

/-- The summary of a live shell moves a discarded segment report from reported to lost (R144). -/
def ShellContext.lostReport (shell : Nat) (c : ShellContext) : ShellContext :=
  if c.shell = shell then
    { c with summary := { c.summary with
        reported := c.summary.reported - 1
        lost := satSucc 65535 c.summary.lost } }
  else c

/-- The oldest entry of a full queue is discarded (R144). -/
def State.discardOldest (s : State) (date : PartTime) : State :=
  match s.rqu.entries with
  | [] => s
  | r :: rest =>
    let s1 := (s.setRqu { s.rqu with entries := rest }).report .resultOverflow .upstream date r.shellNumber
    if r.isSegment then
      s1.mapCtx (ShellContext.lostReport r.shellNumber)
    else s1

/-- At a GATE_A rise that creates a context, room is made if the queue is full, and the reservation is taken (R141, R144). -/
def State.reserve (s : State) (date : PartTime) : State :=
  let s1 := if 64 ≤ s.rqu.entries.length + s.rqu.reservations then s.discardOldest date else s
  s1.setRqu { s1.rqu with reservations := s1.rqu.reservations + 1 }

end Sys2Proof.Machine
end

