-- ==== Sys2Proof/Machine/WallMap.lean ====
section
/-! DEFINITION. The Wall Map Builder (06_wall_map): zone accumulation, the segment window, eviction, closing, and the end of a shell. -/

namespace Sys2Proof.Machine

/-- A placed shot's own fields (R89). -/
structure Placed where
  slot    : Fin 2
  shell   : Nat
  segment : Nat
  sector  : Nat
  x       : Nat
deriving DecidableEq, Repr

/-! ### Zones and records (R108, R109, R113) -/

/-- A wall accumulated into a zone (R109). -/
def accumulate (z : Option Zone) (wall x : Nat) : Zone :=
  match z with
  | none => ⟨1, wall, wall, x, wall⟩
  | some z =>
    { n    := if z.n < 65535 then z.n + 1 else z.n
      sum  := if z.n < 65535 then z.sum + wall else z.sum
      min  := if wall < z.min then wall else z.min
      xMin := if wall < z.min then x else z.xMin
      max  := if z.max < wall then wall else z.max }

/-- A wall accumulated into one zone of a record (R109). -/
def OpenSegment.accumulate (r : OpenSegment) (sector wall x : Nat) : OpenSegment :=
  { r with zones := r.zones.set sector (some (Machine.accumulate (r.zones.getD sector none) wall x)) }

/-- A record opened for a shot, every zone empty (R113). -/
def openRecord (p : Placed) (sectors : Nat) : OpenSegment :=
  ⟨p.slot, p.shell, p.segment, sectors, List.replicate sectors none⟩

/-- The record has the key of a shell number and a segment index (R107). -/
def OpenSegment.hasKey (r : OpenSegment) (shell index : Nat) : Bool :=
  r.shell == shell && r.index == index

/-- The lower of two records by segment index. -/
def lowerOf (held : Option OpenSegment) (r : OpenSegment) : Option OpenSegment :=
  match held with
  | none => some r
  | some m => if r.index < m.index then some r else some m

/-- The open record of a shell with the lowest segment index (R114, R117). -/
def lowestOpen (window : List OpenSegment) (shell : Nat) : Option OpenSegment :=
  (window.filter fun r => r.shell == shell).foldl lowerOf none

/-! ### The summary in the context -/

/-- One reason is counted in the shell's summary (R110). -/
def ShellContext.count (c : ShellContext) (r : Reason) : ShellContext :=
  { c with summary := { c.summary with reasons := c.summary.reasons.bump r } }

/-- One reason is counted for the shell of a slot (R110). -/
def State.countReason (s : State) (i : Fin 2) (r : Reason) : State :=
  s.modCtx i (ShellContext.count · r)

/-! ### Closing a segment (R118) -/

/-- Steps 2 to 4 of a closing and the count of step 5, in the context: missing indices, boundary, fold, and reported or lost (R118). -/
def ShellContext.closed (c : ShellContext) (index : Nat) (r : SegmentReport) (accepted : Bool) : ShellContext :=
  let x := { c.summary with missing := satAdd16 c.summary.missing (index - c.boundary) }
  let y := x.fold r
  { c with
    boundary := index + 1
    summary := if accepted then { y with reported := satSucc 65535 y.reported } else { y with lost := satSucc 65535 y.lost } }

/-- A segment closes: its record leaves the window, its shell's context moves, it is judged and its report offered (R118). -/
def State.closeSegment (s : State) (r : OpenSegment) (early : Bool) : State :=
  let s1 := s.setWmb { s.wmb with window := s.wmb.window.filter fun x => !x.hasKey r.shell r.index }
  match s.ctx r.slot with
  | none => s1
  | some c =>
    let report := judge (s.productEntry c.product) c.product.val r early
    (s1.offerSegment report).setCtx r.slot (some (c.closed r.index report (!s.rqu.refuses)))

/-- Open records of a shell close, the lowest first, while a test of their index holds; `fuel` bounds their number (R117). -/
def State.closeRun (s : State) (shell : Nat) (test : Nat → Bool) : Nat → State
  | 0 => s
  | fuel + 1 =>
    match lowestOpen s.wmb.window shell with
    | none => s
    | some r => if test r.index then (s.closeSegment r false).closeRun shell test fuel else s

/-- Natural closing of a MEASURING or TAILING shell at a travel `d` (R119). A shell without a product has no segment length. -/
def State.naturalClose (s : State) (c : ShellContext) (d : Int) : State :=
  if c.productBound then
    let seg := (s.productEntry c.product).segLength
    s.closeRun c.shell (fun k => decide (((k + 1) * seg + s.track.hold : Nat) ≤ d - (s.pMax : Int))) s.wmb.window.length
  else s

/-! ### A good shot meets the window (R111 to R116) -/

/-- A shot whose key has an open record is accumulated into that record (R111). -/
def State.hit (s : State) (p : Placed) (wall : Nat) : State :=
  s.setWmb { s.wmb with
    window := s.wmb.window.map fun r => if r.hasKey p.shell p.segment then r.accumulate p.sector wall p.x else r }

/-- A record opens for the shot and the shot is accumulated into it (R113). -/
def State.openFor (s : State) (p : Placed) (sectors wall : Nat) : State :=
  s.setWmb { s.wmb with window := s.wmb.window ++ [(openRecord p sectors).accumulate p.sector wall p.x] }

/-- The victim of a full window: the lowest record of the older shell that has one (R114). -/
def State.victim (s : State) : Option OpenSegment :=
  s.slots.findSome? fun i => (s.ctx i).bind fun c => lowestOpen s.wmb.window c.shell

/-- A good shot of a USABLE head: hit, LATE, opened, refused WINDOW_FULL, or opened after an eviction (R111 to R116). -/
def State.acceptGood (s : State) (p : Placed) (wall : Nat) : State :=
  match s.ctx p.slot with
  | none => s
  | some c =>
    let sectors := (s.productEntry c.product).sectors
    if s.wmb.window.any (·.hasKey p.shell p.segment) then
      (s.hit p wall).countReason p.slot .good
    else if p.segment < c.boundary then s.countReason p.slot .late
    else if s.wmb.window.length < 12 then (s.openFor p sectors wall).countReason p.slot .good
    else
      match s.victim with
      | none => s.countReason p.slot .windowFull
      | some v =>
        if v.shell = p.shell ∧ p.segment < v.index then s.countReason p.slot .windowFull
        else ((s.closeSegment v true).openFor p sectors wall).countReason p.slot .good

/-! ### The end of a shell (R122) -/

/-- The end of the shell of a slot: its remaining records close, the tail's missing indices are counted, its report is queued, and
its context becomes FREE (R122). -/
def State.endShell (s : State) (i : Fin 2) : State :=
  match s.ctx i with
  | none => s
  | some c =>
    let s1 := s.closeRun c.shell (fun _ => true) s.wmb.window.length
    match s1.ctx i with
    | none => s1
    | some c1 => (s1.queueShellReport (shellReport (s1.productEntry c1.product) c1)).setCtx i none

end Sys2Proof.Machine
end

