-- ==== Sys2Proof/Machine/ShellTracking.lean ====
section
/-! DEFINITION. The Motion Tracker (04_shell_tracking): interpolation, entry at gate A, the scale at gate B, the tail, the
end-of-pass checks and placement. -/

namespace Sys2Proof.Machine

/-! ### Interpolation (R69, R70, R72) -/

/-- The motion at an instant: encoder count and rotation. -/
structure Motion where
  enc : Count
  rho : Angle
deriving DecidableEq, Repr

/-- The bracket of a time: the latest held sample not later than it and the earliest not earlier (R69). Where the held samples together
span 2^31 microseconds or more, the signed comparison does not order them all, and R69 does not say which is latest or earliest:
the last and the first in the history's order are taken (DESIGN CHOICE, log 25). -/
def bracket (history : List Sample) (t : PartTime) : Option (Sample × Sample) :=
  match (history.filter fun x => !earlier t x.tau).getLast?, history.find? fun x => !earlier x.tau t with
  | some lo, some hi => some (lo, hi)
  | _, _ => none

/-- The span of a bracket (R69). -/
def span (b : Sample × Sample) : Nat := elapsed b.1.tau b.2.tau

/-- The motion at a time within a bracket (R69, R70). -/
def motionIn (b : Sample × Sample) (t : PartTime) : Motion where
  enc := b.1.enc + BitVec.ofInt 32 (roundDivInt (countDiff b.2.enc b.1.enc * elapsed b.1.tau t) (span b))
  rho := b.1.rho + BitVec.ofInt 12 (roundDivInt (angleDiff b.2.rho b.1.rho * elapsed b.1.tau t) (span b))

/-- The time lies before the oldest held sample (R69). -/
def beforeOldest (history : List Sample) (t : PartTime) : Bool :=
  history.head?.any fun o => earlier t o.tau

/-- The motion of the oldest held sample (R72). -/
def oldestMotion (history : List Sample) : Motion :=
  match history with
  | o :: _ => ⟨o.enc, o.rho⟩
  | [] => ⟨0, 0⟩

/-- The motion at a gate edge's date, and whether it was clamped to the oldest sample (R72). -/
def gateMotion (history : List Sample) (date : PartTime) : Motion × Bool :=
  if beforeOldest history date then (oldestMotion history, true)
  else
    match bracket history date with
    | some b => (motionIn b date, false)
    | none => (oldestMotion history, true)

/-! ### Travel (R82, R84, R85, R87) -/

/-- The travel of a shell's head end past gate A at an encoder count, with a scale: floored toward minus infinity. -/
def travel (c : ShellContext) (enc : Count) (scale : Nat) : Int :=
  countDiff enc c.encA * scale / 65536

/-! ### Entry at gate A (R75 to R78) -/

/-- The next shell number: 65535 is followed by 1 (R76). -/
def nextShell (n : Nat) : Nat := if n = 65535 then 1 else n + 1

/-- The lowest-numbered FREE slot (R77). -/
def State.freeSlot (s : State) : Option (Fin 2) :=
  if (s.ctx 0).isNone then some 0 else if (s.ctx 1).isNone then some 1 else none

/-- The product that a new shell takes: the oldest announced, else the last entered, else product 0 (R78). -/
def Mtr.nextProduct (m : Mtr) : Fin 16 :=
  match m.announce with
  | p :: _ => p
  | [] => m.lastProduct.getD 0

/-- The flags of a new shell (R52, R72, R78). -/
def State.entryFlags (s : State) (clamped : Bool) : ShellFlags where
  unannounced     := s.mtr.announce.isEmpty
  trackDeviation  := false
  scaleNominal    := false
  gateBMissed     := false
  gateTimeClamped := clamped
  noProduct       := (s.tst.products[s.mtr.nextProduct]).isNone
  noGrade         := match s.tst.products[s.mtr.nextProduct] with
    | some p => !s.tst.curveComplete p.grade
    | none => false
  degradedHeads   := s.someLost

/-- The context of a new shell (R75, R77, R78). -/
def State.newContext (s : State) (m : Motion) (clamped : Bool) : ShellContext where
  phase    := .entering
  shell    := s.mtr.shellCounter
  product  := s.mtr.nextProduct
  grade    := (s.tst.products[s.mtr.nextProduct]).map fun p => Fin.ofNat 8 p.grade
  encA     := m.enc
  rhoA     := m.rho
  scale    := s.track.nominal
  encTail  := none
  length   := none
  heldTemp := none
  boundary := 0
  summary  := Summary.zero
  flags    := s.entryFlags clamped

/-- A new shell enters in a slot; its reservation is taken first, room being made for it (R77, R78, R141, R144). -/
def State.enterShell (s : State) (i : Fin 2) (date : PartTime) (m : Motion) (clamped : Bool) : State :=
  let s1 := s.reserve date
  s1.setMtr { s1.mtr with
    contexts     := s1.mtr.contexts.set i (some (s.newContext m clamped))
    older        := if (s.ctx (otherSlot i)).isSome then otherSlot i else i
    shellCounter := nextShell s.mtr.shellCounter
    lastProduct  := some s.mtr.nextProduct
    announce     := s.mtr.announce.drop 1 }

/-- A resolved GATE_A rise (R77). -/
def State.gateARise (s : State) (date : PartTime) (m : Motion) (clamped : Bool) : State :=
  if s.tst.tracking.isNone then s.report .gateUnconfigured .gates date (gateDetail .a true)
  else if s.anyCtx ShellContext.beforeTail then s.report .gateSequence .gates date (gateDetail .a true)
  else
    match s.freeSlot with
    | none => s.report .gateSequence .gates date (gateDetail .a true)
    | some i => s.enterShell i date m clamped

/-! ### Gate B and the scale (R80, R81) -/

/-- The slot whose context satisfies a test; at most one does where the manual uses it. -/
def State.findSlot (s : State) (p : ShellContext → Bool) : Option (Fin 2) :=
  s.slots.find? fun i => (s.ctx i).any p

/-- The measured scale, when the measurement is accepted (R81). -/
def measuredScale (x : Tracking) (diff : Int) : Option Nat :=
  if diff ≤ 0 then none
  else
    let measured := roundDiv (x.gateDist * 65536) diff.toNat
    if (max measured x.nominal - min measured x.nominal) * 1024 ≤ x.nominal * x.scaleLimit then some measured else none

/-- GATE_TIME_CLAMPED is set on a context that a clamped item acts on (R72). -/
def ShellFlags.clampIf (f : ShellFlags) (clamped : Bool) : ShellFlags :=
  { f with gateTimeClamped := f.gateTimeClamped || clamped }

/-- The context becomes MEASURING at a GATE_B rise (R80, R81). -/
def ShellContext.measured (c : ShellContext) (x : Tracking) (enc : Count) (clamped : Bool) : ShellContext :=
  let f := c.flags.clampIf clamped
  match measuredScale x (countDiff enc c.encA) with
  | some scale => { c with phase := .measuring, scale := scale, flags := f }
  | none => { c with phase := .measuring, flags := { f with trackDeviation := true, scaleNominal := true } }

/-- A resolved GATE_B rise (R80). -/
def State.gateBRise (s : State) (date : PartTime) (m : Motion) (clamped : Bool) : State :=
  match s.findSlot (fun c => c.phase == .entering) with
  | none => s.report .gateSequence .gates date (gateDetail .b true)
  | some i => s.modCtx i fun c => c.measured s.track m.enc clamped

/-! ### The tail (R83, R84) -/

/-- The context becomes TAILING at a GATE_A fall; a negative length is taken as 0 (R83, R84). -/
def ShellContext.tailed (c : ShellContext) (enc : Count) (clamped : Bool) : ShellContext :=
  let f := c.flags.clampIf clamped
  { c with
    phase   := .tailing
    encTail := some enc
    length  := some (travel c enc c.scale).toNat
    flags   := { f with scaleNominal := f.scaleNominal || c.phase == .entering } }

/-- A resolved GATE_A fall (R83). -/
def State.gateAFall (s : State) (date : PartTime) (m : Motion) (clamped : Bool) : State :=
  match s.findSlot ShellContext.beforeTail with
  | none => s.report .gateSequence .gates date (gateDetail .a false)
  | some i => s.modCtx i fun c => c.tailed m.enc clamped

/-- A resolved gate item drives the shell state machine (R74, R99). RSQ holds no GATE_B fall; one would be ignored. -/
def State.resolveGate (s : State) (g : GateEdge) : State :=
  let m := gateMotion s.mtr.history g.date
  match g.line, g.rise with
  | .a, true => s.gateARise g.date m.1 m.2
  | .a, false => s.gateAFall g.date m.1 m.2
  | .b, true => s.gateBRise g.date m.1 m.2
  | .b, false => s

/-! ### End-of-pass checks (R82, R85, R102) -/

/-- The ENTERING distance check (R82). -/
def ShellContext.gateBMissedCheck (c : ShellContext) (x : Tracking) (enc : Count) : ShellContext :=
  if c.phase = .entering ∧ (2 * x.gateDist : Nat) ≤ travel c enc x.nominal then
    { c with phase := .measuring, flags := { c.flags with gateBMissed := true } }
  else c

/-- The tail has cleared the last head by the hold distance (R85). -/
def State.cleared (s : State) (c : ShellContext) (d : Int) : Bool :=
  c.phase == .tailing && decide (((s.pMax + s.track.hold : Nat) : Int) ≤ d - ((c.length.getD 0 : Nat) : Int))

/-- The checks of one live context at the new sample, taken whole (R82, R85). -/
def State.checkContext (s : State) (enc : Count) (i : Fin 2) : State :=
  match s.ctx i with
  | none => s
  | some c0 =>
    let c := c0.gateBMissedCheck s.track enc
    let d := travel c enc c.scale
    let s1 := s.setCtx i (some c)
    let s2 := if c.holdsShots then s1.naturalClose c d else s1
    if s2.cleared c d then (s2.modCtx i fun x => { x with phase := .closing }).endShell i else s2

/-- The end-of-pass checks: the older context first, each whole (R85, R102). -/
def State.endOfPass (s : State) (enc : Count) : State :=
  s.slots.foldl (fun s i => s.checkContext enc i) s

/-! ### Placing a shot (R86 to R89) -/

/-- What placement makes of a shot (R86, R88). -/
inductive Placement where
  | noTube
  | untracked (span : Nat)
  | outOfRange (shell : Nat)
  | placed (p : Placed)
deriving DecidableEq, Repr

/-- The axial coordinate of a shot on a context, when the shot lies on it (R87). -/
def shotOn (c : ShellContext) (distance : Nat) (enc : Count) : Option Nat :=
  let x := travel c enc c.scale - distance
  if c.holdsShots ∧ 0 ≤ x ∧ (∀ l ∈ c.length, x < (l : Nat)) then some x.toNat else none

/-- The sector under a head (R89). -/
def sectorOf (theta : Nat) (rho rhoA : Angle) (sectors : Nat) : Nat :=
  (BitVec.ofNat 12 theta - (rho - rhoA)).toNat * sectors / 4096

/-- The segment and sector of a shot found on a shell (R88, R89). -/
def State.locate (s : State) (i : Fin 2) (c : ShellContext) (theta : Nat) (rho : Angle) (x : Nat) : Placement :=
  if c.productBound then
    let p := s.productEntry c.product
    if 1023 < x / p.segLength then .outOfRange c.shell
    else .placed ⟨i, c.shell, x / p.segLength, sectorOf theta rho c.rhoA p.sectors, x⟩
  else .placed ⟨i, c.shell, 0, 0, x⟩

/-- Placement of a shot with its bracket (R86). -/
def State.place (s : State) (h : Fin 8) (t : PartTime) (b : Sample × Sample) : Placement :=
  if !s.anyCtx ShellContext.holdsShots then .noTube
  else if s.track.gapLimit < span b then .untracked (span b)
  else
    let m := motionIn b t
    let e := s.headEntry h
    match s.slots.findSome? fun i => (s.ctx i).bind fun c => (shotOn c e.distance m.enc).map fun x => (i, c, x) with
    | none => .noTube
    | some (i, c, x) => s.locate i c e.theta m.rho x

end Sys2Proof.Machine
end

