-- ==== Sys2Proof/Machine/WallComputation.lean ====
section
/-! DEFINITION. The Echo Evaluator (01_wall_computation): from an echo list and a temperature to a cold-equivalent wall or a
rejection. It keeps no state (R21); its inputs are read at the evaluation (R3). -/

namespace Sys2Proof.Machine

/-- The outcome of an evaluation (R4). -/
inductive Evaluation where
  | good (wall : Nat)
  | lowEnergy
  | noTemperature
  | noEcho
  | noPair
deriving DecidableEq, Repr

/-- What an evaluation reads (section 1.1.2). -/
structure EvalInput where
  echoes    : List Echo
  temp      : Nat
  energyLow : Bool
  held      : Option Nat
  k         : Nat
  product   : Product
  points    : List GradePoint

/-- The reported temperature: 0..1500 is valid, every other value reads as "none" (R6). -/
def validTemp (raw : Nat) : Option Nat :=
  if raw ≤ 1500 then some raw else none

/-- The held temperature after stage 2: a valid reading replaces it, stored as reported (R7). -/
def heldAfter (temp : Nat) (held : Option Nat) : Option Nat :=
  (validTemp temp).or held

/-- Point `i` of a curve. -/
def curveAt (points : List GradePoint) (i : Nat) : GradePoint :=
  points.getD i ⟨0, 0⟩

/-- Interpolation between two neighbouring figures, `f` of 40 degrees above the first (R10). -/
def interpolate (y0 y1 f : Nat) : Nat :=
  ((y0 : Int) + roundDivInt (((y1 : Int) - (y0 : Int)) * f) 40).toNat

/-- Velocity at a clamped temperature (R9, R10). -/
def velocityAt (points : List GradePoint) (theta : Nat) : Nat :=
  if theta / 40 < 32 then
    interpolate (curveAt points (theta / 40)).velocity (curveAt points (theta / 40 + 1)).velocity (theta % 40)
  else (curveAt points 32).velocity

/-- Shrink at a clamped temperature (R9, R10). -/
def shrinkAt (points : List GradePoint) (theta : Nat) : Nat :=
  if theta / 40 < 32 then
    interpolate (curveAt points (theta / 40)).shrink (curveAt points (theta / 40 + 1)).shrink (theta % 40)
  else (curveAt points 32).shrink

/-- A corrected separation (R13). -/
def corrected (k x : Nat) : Nat :=
  roundDiv (x * k) 65536

/-- The lower end of the echo gate in corrected half-nanoseconds (R11). -/
def gateLo (wallLo v : Nat) : Nat := ceilDiv (wallLo * 40000) v

/-- The upper end of the echo gate (R11). -/
def gateHi (wallHi v : Nat) : Nat := wallHi * 40000 / v

/-- The candidates' times, in the order of the list (R12). -/
def candidates (ampMin : Nat) (echoes : List Echo) : List Nat :=
  (echoes.filter fun e => decide (ampMin ≤ e.amp)).map Echo.time

/-- A pair found by the search: the first time, the second time, their corrected separation and the candidates after the second. -/
structure EchoPair where
  first  : Nat
  second : Nat
  sep    : Nat
  rest   : List Nat
deriving DecidableEq, Repr

/-- The first later candidate whose separation from `ti` lies in the gate (R14). -/
def partner (k lo hi ti : Nat) : List Nat → Option EchoPair
  | [] => none
  | tj :: rest =>
    if lo ≤ corrected k (tj - ti) ∧ corrected k (tj - ti) ≤ hi then some ⟨ti, tj, corrected k (tj - ti), rest⟩
    else partner k lo hi ti rest

/-- Stage 7: the first candidate that has a partner wins, with that partner (R14). -/
def findPair (k lo hi : Nat) : List Nat → Option EchoPair
  | [] => none
  | ti :: rest =>
    match partner k lo hi ti rest with
    | some p => some p
    | none => findPair k lo hi rest

/-- The distance of two separations. -/
def distance (a b : Nat) : Nat := max a b - min a b

/-- Stage 8: the first candidate after the pair whose separation from the second echo is within the repeat tolerance (R15). -/
def confirming (k tol : Nat) (p : EchoPair) : Option Nat :=
  p.rest.find? fun tm => decide (distance (corrected k (tm - p.second)) p.sep ≤ tol)

/-- The hot wall of a pair, saturated at 65535 (R16). -/
def hotWall (k tol v : Nat) (p : EchoPair) : Nat :=
  min 65535 (match confirming k tol p with
    | some tm => roundDiv (v * corrected k (tm - p.first)) 80000
    | none => roundDiv (v * p.sep) 40000)

/-- Stage 9: the cold-equivalent wall (R17). -/
def coldWall (hot shrink : Nat) : Nat :=
  roundDiv (hot * shrink) 65536

/-- Stages 3 to 9 at a clamped temperature (R9 to R17). -/
def evaluateAt (x : EvalInput) (theta : Nat) : Evaluation :=
  let v := velocityAt x.points theta
  let cs := candidates x.product.ampMin x.echoes
  if cs.length < 2 then .noEcho
  else
    match findPair x.k (gateLo x.product.wallLo v) (gateHi x.product.wallHi v) cs with
    | none => .noPair
    | some p => .good (coldWall (hotWall x.k x.product.repeatTol v p) (shrinkAt x.points theta))

/-- An evaluation: the stages in order, the first failing check deciding (R4, R5, R7, R8). -/
def evaluate (x : EvalInput) : Evaluation :=
  if x.energyLow then .lowEnergy
  else
    match heldAfter x.temp x.held with
    | none => .noTemperature
    | some theta => evaluateAt x (min 1280 theta)

/-- The shell's held temperature after an evaluation: stage 1 ends a low-energy evaluation before it is written (R5, R7). -/
def evaluateHeld (x : EvalInput) : Option Nat :=
  if x.energyLow then x.held else heldAfter x.temp x.held

end Sys2Proof.Machine
end

