-- ==== Sys2Proof/Machine/ResolutionQueue.lean ====
section
/-! DEFINITION. The Resolution Queue (05_the_resolution_queue): order, arrival, resolution at once and the resolution pass; and the
gate filters that feed it (R73, R74). -/

namespace Sys2Proof.Machine

/-! ### Items and their order (R91, R92) -/

/-- The time of an item (R91). -/
def Item.time : Item → PartTime
  | .shot x => x.time
  | .gate g => g.date

/-- The item is a shot item. -/
def Item.isShot : Item → Bool
  | .shot _ => true
  | .gate _ => false

/-- The number of shot items held (R92). -/
def Rsq.shots (q : Rsq) : Nat := q.items.countP Item.isShot

/-- The number of gate items held (R92). -/
def Rsq.gates (q : Rsq) : Nat := q.items.countP fun i => !i.isShot

/-- The tie order of two items of equal time: the held one sorts after the arriving one (R92). -/
def tieAfter (held new : Item) : Bool :=
  match held, new with
  | .gate _, _ => false
  | .shot _, .gate _ => true
  | .shot a, .shot b => decide (b.head < a.head)

/-- The held item sorts after the arriving one (R92). -/
def sortsAfter (held new : Item) : Bool :=
  earlier new.time held.time || (held.time == new.time && tieAfter held new)

/-- The arriving item is placed immediately before the first held item that sorts after it, or at the end (R92). -/
def insertItem (new : Item) : List Item → List Item
  | [] => [new]
  | held :: rest => if sortsAfter held new then new :: held :: rest else held :: insertItem new rest

/-- The state with an item inserted (R92). -/
def State.hold (s : State) (i : Item) : State :=
  s.setRsq { s.rsq with items := insertItem i s.rsq.items }

/-! ### Resolution of one item (R98 to R100) -/

/-- Stage 4: WMB counts a reason, withholds, or takes the wall into the window (R19, R110). -/
def State.deliver (s : State) (h : Fin 8) (p : Placed) (e : Evaluation) : State :=
  match e with
  | .good wall => if (s.head h).usable then s.acceptGood p wall else s.countReason p.slot .withheld
  | .lowEnergy => s.countReason p.slot .lowEnergy
  | .noTemperature => s.countReason p.slot .noTemperature
  | .noEcho => s.countReason p.slot .noEcho
  | .noPair => s.countReason p.slot .noPair

/-- What an evaluation of a shot on a context reads (R3). -/
def State.evalInput (s : State) (x : Shot) (c : ShellContext) : EvalInput where
  echoes    := x.echoes
  temp      := x.temp
  energyLow := x.energyLow
  held      := c.heldTemp
  k         := (s.head x.head).k
  product   := s.productEntry c.product
  points    := s.curvePoints ((c.grade.getD 0).val)

/-- The outcome is a good one for the head (R18). -/
def Evaluation.isGood : Evaluation → Bool
  | .good _ => true
  | .lowEnergy => false
  | .noTemperature => false
  | .noEcho => false
  | .noPair => false

/-- Stages 2 to 4 of a placed shot: evaluation, outcome recording, accumulation (R2, R18, R19, R100). -/
def State.evaluateShot (s : State) (x : Shot) (p : Placed) : State :=
  match s.ctx p.slot with
  | none => s
  | some c =>
    if c.curveBound then
      let input := s.evalInput x c
      let e := evaluate input
      let s1 := s.setCtx p.slot (some { c with heldTemp := evaluateHeld input })
      (s1.recordOutcome x.head e.isGood).deliver x.head p e
    else s.countReason p.slot .noProduct

/-- A shot with a bracket is taken whole through its stages (R100). -/
def State.resolveBracketed (s : State) (x : Shot) (b : Sample × Sample) : State :=
  match s.place x.head x.time b with
  | .noTube => s
  | .untracked sp => s.report .untracked (.head x.head) x.time (min 65535 sp)
  | .outOfRange shell => s.report .outOfRange (.head x.head) x.time shell
  | .placed p => s.evaluateShot x p

/-- A STALE shot is discarded; the detail is the time by which it precedes the oldest held sample (R93, R99). -/
def State.discardStale (s : State) (x : Shot) : State :=
  match s.mtr.history.head? with
  | none => s
  | some o => s.report .staleShot (.head x.head) x.time (min 65535 (elapsed x.time o.tau))

/-- A shot item is resolved against the history held (R99, R100). -/
def State.resolveShot (s : State) (x : Shot) : State :=
  if beforeOldest s.mtr.history x.time then s.discardStale x
  else
    match bracket s.mtr.history x.time with
    | some b => s.resolveBracketed x b
    | none => s.discardStale x

/-- An item is resolved (R99). -/
def State.resolveItem (s : State) : Item → State
  | .shot x => s.resolveShot x
  | .gate g => s.resolveGate g

/-! ### Arrival (R93, R97, R98) -/

/-- The history is not empty and the time is not later than the newest held sample's (R93, R97). -/
def notAfterNewest (history : List Sample) (t : PartTime) : Bool :=
  history.getLast?.any fun n => !earlier n.tau t

/-- A held shot item has the same head and the same shot time (R93). -/
def Rsq.holdsDuplicate (q : Rsq) (x : Shot) : Bool :=
  q.items.any fun i =>
    match i with
    | .shot y => y.head == x.head && y.time == x.time
    | .gate _ => false

/-- Arrival of a measuring shot (R93). -/
def State.shotArrival (s : State) (x : Shot) : State :=
  if s.rsq.holdsDuplicate x then s.report .duplicateShot (.head x.head) x.time x.seq.toNat
  else if beforeOldest s.mtr.history x.time then s.discardStale x
  else if notAfterNewest s.mtr.history x.time then s.resolveShot x
  else if 60 ≤ s.rsq.shots then s.report .resolveOverflow (.head x.head) x.time x.seq.toNat
  else s.hold (.shot x)

/-- Arrival of a gate item (R97). -/
def State.gateArrival (s : State) (g : GateEdge) : State :=
  if notAfterNewest s.mtr.history g.date then s.resolveGate g
  else if 4 ≤ s.rsq.gates then s.report .gateOverflow .gates g.date (gateDetail g.line g.rise)
  else s.hold (.gate g)

/-! ### The resolution pass (R99, R101) -/

/-- The items from the front of the queue are removed and resolved until one is later than the sample's time (R99). -/
def State.passItems (s : State) (tau : PartTime) : List Item → State
  | [] => s
  | i :: rest =>
    if earlier tau i.time then s
    else ((s.setRsq { s.rsq with items := rest }).resolveItem i).passItems tau rest

/-- One resolution pass with a sample as the newest held, and its end-of-pass checks (R68, R99, R102). -/
def State.resolutionPass (s : State) (x : Sample) : State :=
  (s.passItems x.tau s.rsq.items).endOfPass x.enc

/-- The history with an accepted sample as its newest; it holds the eight most recent (R67). -/
def pushSample (history : List Sample) (x : Sample) : List Sample :=
  (history ++ [x]).drop (history.length + 1 - 8)

/-- A motion sample that arrives at part time `t` (R67, R68). -/
def State.motionSample (s : State) (t : PartTime) (x : Sample) (fault : Bool) : State :=
  if fault then s
  else if s.mtr.history.getLast?.any (fun n => !earlier n.tau x.tau) then
    s.report .motionOrder .headLink t (x.tau.toNat % 65536)
  else (s.setMtr { s.mtr with history := pushSample s.mtr.history x }).resolutionPass x

/-! ### The gate filters (R73, R74) -/

/-- The filter of a line. -/
def State.filter (s : State) : GateLine → GateFilter
  | .a => s.mtr.gateA
  | .b => s.mtr.gateB

/-- The state with the filter of a line replaced. -/
def State.setFilter (s : State) (line : GateLine) (f : GateFilter) : State :=
  match line with
  | .a => s.setMtr { s.mtr with gateA := f }
  | .b => s.setMtr { s.mtr with gateB := f }

/-- A taken change: the settled level becomes the new level, and the edge dated at the change's beginning is handed to RSQ, but for a
GATE_B fall, which is not handed on (R73, R74). -/
def State.takeEdge (s : State) (line : GateLine) (date : PartTime) : State :=
  let rise := !(s.filter line).settled
  let s1 := s.setFilter line { s.filter line with settled := rise, pending := none }
  match line, rise with
  | .b, false => s1
  | .b, true => s1.gateArrival ⟨.b, true, date⟩
  | .a, r => s1.gateArrival ⟨.a, r, date⟩

/-- A pending change begins; with a filter time of 0 it is taken at the moment it begins (R73). -/
def State.beginChange (s : State) (line : GateLine) (t : PartTime) : State :=
  if s.track.filterTime = 0 then s.takeEdge line t
  else s.setFilter line { s.filter line with pending := some ⟨t, s.track.filterTime⟩ }

/-- A gate line goes to a level (R73): a pending change begins, or is discarded when the line returns to the settled level. -/
def State.lineChange (s : State) (line : GateLine) (t : PartTime) (high : Bool) : State :=
  if (s.filter line).line = high then s
  else
    let s1 := s.setFilter line { s.filter line with line := high }
    if high = (s.filter line).settled then s1.setFilter line { s1.filter line with pending := none }
    else s1.beginChange line t

/-- A pending change has lasted the filter time read when it began (R73, R74). With no pending change there is nothing to take. -/
def State.filterExpiry (s : State) (line : GateLine) : State :=
  match (s.filter line).pending with
  | none => s
  | some x => (s.setTime (later x.since x.filterTime)).takeEdge line x.since

end Sys2Proof.Machine
end

