-- ==== Sys2Proof/Machine/FiringSchedule.lean ====
section
/-! DEFINITION. The Firing Scheduler (02_firing_schedule): validation, START and STOP, cycles, firing points, replies and windows,
and the round tally. -/

namespace Sys2Proof.Machine

/-! ### The head link's transmit queue (R205) -/

/-- FSC hands a frame to the head link port, which sends frames in the order handed (R31, R205; log 14). -/
def State.handHead (s : State) (f : HeadFrame) : State :=
  s.setHlp { s.hlp with queue := s.hlp.queue ++ [f] }

/-- The CYCLE_MARK frame: cycle count and part time of the cycle's start (R31, R205). -/
def cycleMark (count : Nat) (t : PartTime) : HeadFrame :=
  ⟨0, kindCycleMark, byteOf count :: be32 t.toNat⟩

/-- The code of a fire kind (R204, R205). -/
def FireKind.code : FireKind → Byte
  | .measure => 0
  | .calibrate => 1

/-- The FIRE_ORDER frame: head, shot sequence and kind (R35, R205). -/
def fireOrder (h : Fin 8) (seq : Byte) (kind : FireKind) : HeadFrame :=
  ⟨0, kindFireOrder, [byteOf h.val, seq, kind.code]⟩

/-! ### The schedule list (R23, R27) -/

/-- The entry is an END. -/
def ListEntry.isFin : ListEntry → Bool
  | .none => false
  | .shot _ _ _ _ _ _ => false
  | .fin _ => true

/-- The entry is NONE. -/
def ListEntry.isNone : ListEntry → Bool
  | .none => true
  | .shot _ _ _ _ _ _ => false
  | .fin _ => false

/-- The entry's offset; a NONE entry has none and reads as 0 (R194). -/
def ListEntry.offset : ListEntry → Nat
  | .none => 0
  | .shot o _ _ _ _ _ => o
  | .fin o => o

/-- Entry `n` of the schedule list (R23). -/
def State.entry (s : State) (n : Nat) : ListEntry :=
  s.scheduleList.getD n .none

/-- The index of the first END, or 48 when the list has none (R23). -/
def State.finIndex (s : State) : Nat :=
  s.scheduleList.findIdx ListEntry.isFin

/-- The least offset that the spacing check allows entry `n` (R27 check 2). -/
def State.leastOffset (s : State) (n : Nat) : Nat :=
  if n = 0 then 25 else (s.entry (n - 1)).offset + 25

/-- Entry `n` passes checks 1 to 5 of R27. -/
def State.entryPasses (s : State) (n : Nat) : Bool :=
  let last := s.finIndex
  match s.entry n with
  | .none => decide (last < n)
  | .fin o => decide (n = last) && decide (s.leastOffset n ≤ o) && decide (500 ≤ o) && decide (o ≤ 60000) && decide (1 ≤ n)
  | .shot o h p phase w _ =>
    decide (n < last) && decide (s.leastOffset n ≤ o) && s.enabled h
      && decide ((s.tst.header.getD 0) % p = 0) && decide (phase < p) && (s.tst.profiles[w]).isSome

/-- The offending index of a validation, none when every check passes: 255 for an unloaded header, 48 for a list without an END
whose entries all pass (R27). -/
def State.offending (s : State) : Option Nat :=
  if s.tst.header.isNone then some 255
  else
    match (List.range 48).find? fun n => !s.entryPasses n with
    | some n => some n
    | none => if s.finIndex < 48 then none else some 48

/-! ### The round tally (R43, R44) -/

/-- The tally of one round changed. -/
def State.modTally (s : State) (round : Nat) (f : Tally → Tally) : State :=
  s.setFsc { s.fsc with tallies := s.fsc.tallies.map fun x => if x.round = round then f x else x }

/-- A round's tally resolves when the round has ended and every issued fire has resolved: it is discarded, and its shortness becomes
the last resolved round's (R44). -/
def State.resolveRound (s : State) (round : Nat) : State :=
  match s.fsc.tallies.find? fun x => x.round == round with
  | none => s
  | some x =>
    if x.ended ∧ x.resolved = x.issued then
      (s.setFsc { s.fsc with
        tallies := s.fsc.tallies.filter fun y => y.round != round
        lastShort := decide (0 < x.misses ∨ 0 < x.skips) }).recomputeLevel
    else s

/-- A fire resolves in the tally of its round, as a reply or as a miss (R43). -/
def State.tallyResolved (s : State) (round : Nat) (isMiss : Bool) : State :=
  (s.modTally round fun x =>
    { x with resolved := x.resolved + 1, misses := if isMiss then x.misses + 1 else x.misses }).resolveRound round

/-- A new round begins, with all counts zero (R43). -/
def State.beginRound (s : State) : State :=
  s.setFsc { s.fsc with
    round := s.fsc.round + 1
    tallies := s.fsc.tallies ++ [⟨s.fsc.round + 1, 0, 0, 0, 0, false⟩] }

/-- The round in progress ends (R44). -/
def State.endRound (s : State) : State :=
  (s.modTally s.fsc.round fun x => { x with ended := true }).resolveRound s.fsc.round

/-! ### START and STOP (R26 to R31) -/

/-- A cycle begins at a start time with a count, and its cycle mark is handed over (R31). -/
def State.beginCycle (s : State) (count : Nat) (t : PartTime) : State :=
  (s.setFsc { s.fsc with cycleCount := count, cycleStart := t, place := 0 }).handHead (cycleMark count t)

/-- The schedule begins running at part time `t` (R26, R31); leaving HALTED recomputes the level (R45). -/
def State.beginRun (s : State) (t : PartTime) : State :=
  (((s.setFsc { s.fsc with state := .running }).beginRound).beginCycle 0 t).recomputeLevel

/-- A failed validation halts the schedule (R28). -/
def State.halt (s : State) : State :=
  (s.setFsc { s.fsc with state := .halted }).raiseScheduleHalted.recomputeLevel

/-- START validates and begins running, or halts the schedule; the offending index when it halts (R26, R28). -/
def State.validateAndRun (s : State) (t : PartTime) : State × Option Nat :=
  match s.offending with
  | some n => (s.halt, some n)
  | none => (s.beginRun t, none)

/-- START according to the schedule state (R26). -/
def State.startSchedule (s : State) (t : PartTime) : State × Option Nat :=
  match s.fsc.state with
  | .stopped => s.validateAndRun t
  | .halted => s.validateAndRun t
  | .running => (s, none)
  | .stopping => (s.setFsc { s.fsc with state := .running }, none)

/-- STOP (R29). -/
def State.stopSchedule (s : State) : State :=
  match s.fsc.state with
  | .running => s.setFsc { s.fsc with state := .stopping }
  | .stopping => s
  | .stopped => s
  | .halted => s

/-- Cycles run in RUNNING and STOPPING (2.2). -/
def State.cyclesRun (s : State) : Bool :=
  s.fsc.state == .running || s.fsc.state == .stopping

/-! ### Cycle end (R32) -/

/-- The part time of the END of the cycle in progress (R31). -/
def State.cycleEndTime (s : State) : PartTime :=
  later s.fsc.cycleStart (s.entry s.finIndex).offset

/-- The END in RUNNING: the next cycle begins at once with the advanced count; a count of 0 ends the round and begins a new one (R32). -/
def State.nextCycle (s : State) (t : PartTime) : State :=
  let count := (s.fsc.cycleCount + 1) % s.tst.header.getD 1
  if count = 0 then (s.endRound.beginRound).beginCycle count t else s.beginCycle count t

/-- The END of the cycle in progress (R32). Without a cycle in progress there is none. -/
def State.endCycle (s : State) : State :=
  let t := s.cycleEndTime
  match s.fsc.state with
  | .running => (s.setTime t).nextCycle t
  | .stopping => (((s.setTime t).setFsc { s.fsc with state := .stopped }).endRound)
  | .stopped => s
  | .halted => s

/-! ### Firing points (R33 to R35) -/

/-- Deferral holds (R34). -/
def State.deferral (s : State) : Bool :=
  s.calSetup.defer && s.anyCtx ShellContext.holdsShots

/-- The kind of fire that a firing point issues (R34). -/
def State.fireKind (s : State) (h : Fin 8) (steal : Bool) : FireKind :=
  if s.hcu.request = some h ∧ steal = true ∧ s.deferral = false then .calibrate else .measure

/-- The reply window of a kind in a profile (R25). -/
def Profile.window (p : Profile) : FireKind → Nat
  | .measure => p.measure
  | .calibrate => p.calibrate

/-- A fire is issued (R35). -/
def State.issueFire (s : State) (h : Fin 8) (kind : FireKind) (t : PartTime) (window : Nat) : State :=
  let s1 := s.handHead (fireOrder h (s.fsc.seqs[h]) kind)
  (s1.setFsc { s1.fsc with
    records := s.fsc.records.set h (.outstanding (s.fsc.seqs[h]) kind (later t window) s.fsc.round)
    seqs := s.fsc.seqs.set h (s.fsc.seqs[h] + 1) }).modTally s.fsc.round fun x => { x with issued := x.issued + 1 }

/-- A firing point is skipped (R33). -/
def State.skipFire (s : State) (h : Fin 8) (t : PartTime) (n : Nat) : State :=
  (s.modTally s.fsc.round fun x => { x with skips := x.skips + 1 }).report .triggerSkip (.head h) t n

/-- A selected firing point at part time `t` (R33 to R35). -/
def State.firePoint (s : State) (n : Nat) (t : PartTime) (h : Fin 8) (profile : Fin 4) (steal : Bool) : State :=
  match s.fire h with
  | .outstanding _ _ _ _ => s.skipFire h t n
  | .idle => s.issueFire h (s.fireKind h steal) t ((s.tst.profiles[profile]).getD ⟨0, 0⟩ |>.window (s.fireKind h steal))
  | .expired _ _ => s.issueFire h (s.fireKind h steal) t ((s.tst.profiles[profile]).getD ⟨0, 0⟩ |>.window (s.fireKind h steal))

/-- Entry `n` is a firing point that the cycle in progress has not passed yet (R23, R31). -/
def State.pointAhead (s : State) (n : Nat) : Bool :=
  s.cyclesRun && decide (n < s.finIndex) && decide (s.fsc.place ≤ n)

/-- The offset of entry `n` is reached in the cycle in progress (R24, R33). An entry that the cycle does not select passes with no
effect. An entry that is no firing point of the cycle, or that the cycle has passed, has no offset to reach. -/
def State.reachEntry (s : State) (n : Nat) : State :=
  match s.entry n with
  | .none => s
  | .fin _ => s
  | .shot offset h period phase profile steal =>
    if s.pointAhead n then
      let t := later s.fsc.cycleStart offset
      let s1 := (s.setTime t).setFsc { s.fsc with place := n + 1 }
      if s.fsc.cycleCount % period = phase then s1.firePoint n t h profile steal else s1
    else s

/-! ### Replies and windows (R36 to R42) -/

/-- What HLP hands FSC of a shot report (R37, R204). -/
structure ShotReport where
  seq       : Byte
  kind      : FireKind
  time      : PartTime
  temp      : Nat
  energyLow : Bool
  echoes    : List Echo
deriving DecidableEq, Repr

/-- A closed fire's report is routed by the kind of the fire (R38). -/
def State.routeReply (s : State) (h : Fin 8) (r : ShotReport) : State :=
  match r.kind with
  | .measure => s.shotArrival ⟨h, r.time, r.seq, r.temp, r.energyLow, r.echoes⟩
  | .calibrate => s.calibrationReply h r.energyLow r.echoes

/-- A matching report closes the fire (R38). -/
def State.closeFire (s : State) (h : Fin 8) (round : Nat) (r : ShotReport) : State :=
  ((((s.setFire h .idle).replied h).tallyResolved round false).routeReply h r)

/-- A shot report that passed HLP's checks, taken at part time `t` (R37, R40, R41). -/
def State.matchReport (s : State) (t : PartTime) (h : Fin 8) (r : ShotReport) : State :=
  match s.fire h with
  | .outstanding seq kind _ round =>
    if r.seq = seq ∧ r.kind = kind then s.closeFire h round r
    else s.report .unsolicited (.head h) t r.seq.toNat
  | .expired seq kind =>
    if r.seq = seq ∧ r.kind = kind then s.report .lateReply (.head h) t r.seq.toNat
    else s.report .unsolicited (.head h) t r.seq.toNat
  | .idle => s.report .unsolicited (.head h) t r.seq.toNat

/-- A miss is recorded with the head: a bad outcome, which for a CALIBRATE fire is the calibration's own (R39, R53, R62). -/
def State.recordMiss (s : State) (h : Fin 8) (kind : FireKind) : State :=
  match kind with
  | .measure => (s.missed h).recordOutcome h false
  | .calibrate => (s.missed h).calibrationMiss h

/-- The window of the head's outstanding fire runs out (R39). With no outstanding fire there is none to run out (R40). -/
def State.windowExpiry (s : State) (h : Fin 8) : State :=
  match s.fire h with
  | .outstanding seq kind expiry round =>
    ((((s.setTime expiry).setFire h (.expired seq kind)).recordMiss h kind).tallyResolved round true)
  | .expired _ _ => s
  | .idle => s

end Sys2Proof.Machine
end

