-- ==== Sys2Proof/Machine/LineChain.lean ====
section
/-! DEFINITION. The Line Chain Port (08_line_chain_and_result_delivery, R145 to R161) and the layouts of the frames that the upstream
arbiter forms (R208, R209). -/

namespace Sys2Proof.Machine

/-! ### Codes of names (R208, R209) -/

/-- The code of a schedule state (R208). -/
def ScheduleState.code : ScheduleState → Nat
  | .stopped => 0
  | .running => 1
  | .stopping => 2
  | .halted => 3

/-- The value of the condition level (R45). -/
def Level.code : Level → Nat
  | .clean => 0
  | .short => 1
  | .headLost => 2
  | .config => 3

/-- The code of a head state (R208). -/
def HeadState.code : HeadState → Nat
  | .disabled => 0
  | .active => 1
  | .lost => 2

/-- The code of a calibration state (R208). -/
def CalState.code : CalState → Nat
  | .never => 0
  | .ok => 1
  | .clamped => 2
  | .failed => 3

/-- The code of the state of a slot; FREE is 0 (R208). -/
def phaseCode : Option ShellContext → Nat
  | none => 0
  | some c =>
    match c.phase with
    | .entering => 1
    | .measuring => 2
    | .tailing => 3
    | .closing => 4

/-- The code of a verdict (R209). -/
def ShellVerdict.code : ShellVerdict → Nat
  | .accept => 0
  | .reject => 1
  | .unverified => 2

/-! ### Payloads of the result frames (R209) -/

/-- A zone record of a segment report. -/
def zoneBytes (z : ZoneReport) : Bytes :=
  [byteOf z.n] ++ be16 z.mean ++ be16 z.min ++ be16 z.max

/-- The payload of a SEGMENT_REPORT. -/
def segmentPayload (r : SegmentReport) : Bytes :=
  be16 r.shell ++ be16 r.index ++ [byteOf r.product, byteOf r.sectors]
    ++ [byteOf (packBits [r.verdict.thin, r.verdict.thick, r.verdict.eccentric, r.verdict.sparse, r.verdict.earlyClose])]
    ++ [byteOf r.valid] ++ be16 (r.ecc.getD 0xFFFF)
    ++ be16 r.min ++ [byteOf r.minSector] ++ be32 r.minX ++ be16 r.max ++ [byteOf r.maxSector]
    ++ r.zones.flatMap zoneBytes

/-- The flags byte of a SHELL_REPORT. -/
def shellFlagsByte (f : ShellFlags) : Byte :=
  byteOf (packBits [f.unannounced, f.trackDeviation, f.scaleNominal, f.gateBMissed, f.gateTimeClamped, f.noProduct,
    f.noGrade, f.degradedHeads])

/-- The min wall field of a SHELL_REPORT; an absent extreme has segment 0xFFFF and zeros. -/
def minWallBytes : Option MinWall → Bytes
  | some m => be16 m.wall ++ be16 m.segment ++ [byteOf m.sector] ++ be32 m.x
  | none => be16 0 ++ be16 0xFFFF ++ [0] ++ be32 0

/-- The max wall and max eccentricity fields of a SHELL_REPORT. -/
def figureBytes : Option SegFigure → Bytes
  | some m => be16 m.value ++ be16 m.segment
  | none => be16 0 ++ be16 0xFFFF

/-- The ten reason counts of a SHELL_REPORT, in its order. -/
def reasonBytes (r : Reasons) : Bytes :=
  be16 r.good ++ be16 r.noEcho ++ be16 r.noPair ++ be16 r.noTemperature ++ be16 r.lowEnergy ++ be16 r.late
    ++ be16 r.windowFull ++ be16 r.outOfRange ++ be16 r.withheld ++ be16 r.noProduct

/-- The payload of a SHELL_REPORT. -/
def shellPayload (r : ShellReport) : Bytes :=
  be16 r.shell ++ [byteOf r.verdict.code, shellFlagsByte r.flags, byteOf r.product]
    ++ [byteOf (match r.grade with | some g => g.val | none => 255)]
    ++ be32 r.length ++ be32 r.scale
    ++ be16 r.summary.reported ++ be16 r.summary.missing ++ be16 r.summary.lost ++ be16 r.summary.earlyClosed
    ++ be16 r.summary.thin ++ be16 r.summary.thick ++ be16 r.summary.eccentric
    ++ minWallBytes r.summary.minWall ++ figureBytes r.summary.maxWall ++ figureBytes r.summary.maxEcc
    ++ reasonBytes r.summary.reasons

/-- The kinds byte of a NOTICE. -/
def noticeKinds (n : Notices) : Byte :=
  byteOf (packBits [n.levelChange, n.headLost, n.headBack, n.calOverrun, n.calClamped, n.captureHeld, n.scheduleHalted])

/-- The payload of a NOTICE: the pending kinds, the level, and the eight head states (R147, R209). -/
def State.noticePayload (s : State) : Bytes :=
  [noticeKinds s.rqu.notices, byteOf s.fsc.level.code] ++ allHeads.map fun h => byteOf (s.head h).state.code

/-! ### The upstream arbiter (R145, R147, R157, R158) -/

/-- The notice set is not empty. -/
def Notices.any (n : Notices) : Bool :=
  n.levelChange || n.headLost || n.headBack || n.calOverrun || n.calClamped || n.captureHeld || n.scheduleHalted

/-- The frame of a result at its choice (R145, R209). -/
def State.resultFrame (s : State) : Report → LineFrame
  | .segment r => ⟨lineComputer, s.lcp.address, kindSegmentReport, s.rqu.tag, segmentPayload r⟩
  | .shell r => ⟨lineComputer, s.lcp.address, kindShellReport, s.rqu.tag, shellPayload r⟩

/-- The answer in the slot is chosen; the answer of a pending RESTART is then in transmission (R156, R178). -/
def State.sendAnswer (s : State) (f : LineFrame) : State :=
  let s1 := s.setLcp { s.lcp with slot := none, upTx := some f }
  match s.cmu.state with
  | .restartPending _ => s1.setCmu { s1.cmu with state := .restartPending .sending }
  | .idle => s1

/-- The notice frame is formed and the notice set becomes empty (R147). -/
def State.sendNotice (s : State) : State :=
  (s.setLcp { s.lcp with upTx := some ⟨lineComputer, s.lcp.address, kindNotice, s.rqu.tag, s.noticePayload⟩ }).setRqu
    { s.rqu with notices := Notices.empty, tag := s.rqu.tag + 1 }

/-- The head of the upstream forward buffer is chosen; the share counter rises while results wait (R153, R158). -/
def State.sendForward (s : State) (f : LineFrame) (rest : List LineFrame) : State :=
  s.setLcp { s.lcp with
    up := rest
    upTx := some f
    share := if s.rqu.entries.isEmpty then s.lcp.share else s.lcp.share + 1 }

/-- The head of the result queue is chosen (R145, R158). -/
def State.sendResult (s : State) (r : Report) (rest : List Report) : State :=
  (s.setLcp { s.lcp with upTx := some (s.resultFrame r), share := 0 }).setRqu
    { s.rqu with entries := rest, tag := s.rqu.tag + 1 }

/-- A forwarded frame may be chosen: the result queue is empty or the share counter is below F (R157 row 3). -/
def State.forwardAllowed (s : State) : Bool :=
  s.rqu.entries.isEmpty || decide (s.lcp.share < s.share)

/-- The result queue's turn (R157 row 4). -/
def State.chooseResult (s : State) : State :=
  match s.rqu.entries with
  | r :: rest => s.sendResult r rest
  | [] => s

/-- The arbiter chooses one frame by the first row that applies, the transmitter being free (R157). -/
def State.arbitrate (s : State) : State :=
  match s.lcp.slot with
  | some f => s.sendAnswer f
  | none =>
    if s.rqu.notices.any then s.sendNotice
    else
      match s.lcp.up with
      | f :: rest => if s.forwardAllowed then s.sendForward f rest else s.chooseResult
      | [] => s.chooseResult

/-- The upstream transmitter has sent the last byte of its frame; a RESTART answer in transmission has then been sent (R157, R178). -/
def State.finishUp (s : State) : State :=
  let s1 := s.setLcp { s.lcp with upTx := none }
  match s.cmu.state with
  | .restartPending .sending => s1.setCmu { s1.cmu with state := .restartPending .sent }
  | .restartPending .waiting => s1
  | .restartPending .sent => s1
  | .idle => s1

/-- The upstream transmitter is free, and the arbiter chooses (R157). -/
def State.upstreamFree (s : State) : State :=
  s.finishUp.arbitrate

/-! ### The choice of an idle upstream transmitter (R157) -/

/-- The claimant that became ready first is chosen, if it still waits; otherwise the rows decide. An answer stands in the first row. -/
def State.chooseFirst (s : State) (c : Claimant) : State :=
  match c with
  | .answer => s.arbitrate
  | .notices => if s.rqu.notices.any then s.sendNotice else s.arbitrate
  | .forwarded =>
    match s.lcp.up with
    | f :: rest => s.sendForward f rest
    | [] => s.arbitrate
  | .results =>
    match s.rqu.entries with
    | r :: rest => s.sendResult r rest
    | [] => s.arbitrate

/-- While the transmitter is free, the first claimant to become ready in the step is chosen at once; while it is busy, claimants wait
(R157; log 12, log 26). -/
def State.settled (s : State) : State :=
  match s.ready with
  | none => s
  | some c => if s.lcp.upTx.isSome then s else s.chooseFirst c

/-- A step of the part taken whole: its effects, then the choice that they give an idle upstream transmitter (R157; log 26). -/
def whole (s : State) (f : State → State) : State :=
  (f (s.setReady none)).settled.setReady s.ready

/-- An event taken at part time `t`: the part acts only while RST is high (R211). -/
def acting (t : PartTime) (s : State) (f : State → State) : State :=
  if s.rstHigh then whole (s.setTime t) f else s.setTime t

/-- An event that the state dates itself: the part acts only while RST is high (R211). -/
def actingTimed (s : State) (f : State → State) : State :=
  if s.rstHigh then whole s f else s

/-! ### The downstream transmitter (R159) -/

/-- The downstream transmitter is free, and takes the head of the downstream forward buffer (R159). -/
def State.downstreamFree (s : State) : State :=
  match s.lcp.down with
  | f :: rest => s.setLcp { s.lcp with down := rest, downTx := some f }
  | [] => s.setLcp { s.lcp with downTx := none }

/-- A transmitter that waits takes the frame that has been entered at once (R159). -/
def State.takeDown (s : State) : State :=
  if s.lcp.downTx.isSome then s else s.downstreamFree

/-! ### Forward buffers (R153) -/

/-- The detail of an anomaly of a line chain frame: destination and kind code (R151, R153). -/
def frameDetail (f : LineFrame) : Nat := 256 * f.dest.toNat + f.kind.toNat

/-- A frame that arrived upstream is entered in the downstream forward buffer, or dropped when eight are held (R153). -/
def State.enterDown (s : State) (t : PartTime) (f : LineFrame) : State :=
  if 8 ≤ s.lcp.down.length then s.report .forwardOverflow .upstream t (frameDetail f)
  else (s.setLcp { s.lcp with down := s.lcp.down ++ [f] }).takeDown

/-- A frame that arrived downstream is entered in the upstream forward buffer, which claims the upstream transmitter, or dropped when
eight are held (R152, R153, R157). -/
def State.enterUp (s : State) (t : PartTime) (f : LineFrame) : State :=
  if 8 ≤ s.lcp.up.length then s.report .forwardOverflow .downstream t (frameDetail f)
  else (s.setLcp { s.lcp with up := s.lcp.up ++ [f] }).claim .forwarded

end Sys2Proof.Machine
end

