-- ==== Sys2Proof/Machine/Resets.lean ====
section
/-! DEFINITION. The two resets (R47, R66, R90, R104, R125, R148, R160, R161, R181, R182, R198, R205, R211). -/

namespace Sys2Proof.Machine

/-- The head link port after a restart: a frame in transmission is completed and the queue is emptied; a frame partly received is
discarded (R205, R161). -/
def State.hlpRestarted (s : State) (cut : Cut) : Hlp :=
  ⟨s.hlp.queue.take 1, s.hlp.discarding || cut.headLink⟩

/-- MTR after a restart (R90): the shell-number counter is kept. -/
def State.mtrRestarted (s : State) : Mtr :=
  { Mtr.reset s.mtr.gateA.line s.mtr.gateB.line with shellCounter := s.mtr.shellCounter }

/-- LCP after a restart (R160, R161): the address, the forward buffers and the frames in transmission are kept. -/
def State.lcpRestarted (s : State) (cut : Cut) : Lcp :=
  { s.lcp with
    slot := none
    share := 0
    upDiscarding := s.lcp.upDiscarding || cut.upstream
    downDiscarding := s.lcp.downDiscarding || cut.downstream }

/-- A restart takes effect at part time `t`, as one event (R181). TST, the capture record and the scratch words are kept (R181, R198). -/
def State.restart (s : State) (t : PartTime) (cut : Cut) : State :=
  { s with
    hlp := s.hlpRestarted cut
    fsc := Fsc.reset
    hcu := s.hcuRestarted t
    mtr := s.mtrRestarted
    rsq := ⟨[]⟩
    wmb := ⟨[]⟩
    rqu := Rqu.reset
    lcp := s.lcpRestarted cut
    cmu := { s.cmu with state := .idle } }

/-- A cold reset sets every block's state to its cold reset value at once, and holds the part until RST rises (R182, R211). The part
time runs on, and the gate lines are where they are. -/
def State.coldReset (s : State) (cut : Cut) : State :=
  { s with
    rstHigh := false
    hlp := ⟨[], s.hlp.discarding || cut.headLink⟩
    fsc := Fsc.reset
    hcu := Hcu.reset
    mtr := Mtr.reset s.mtr.gateA.line s.mtr.gateB.line
    rsq := ⟨[]⟩
    wmb := ⟨[]⟩
    rqu := Rqu.reset
    lcp := Lcp.reset (s.lcp.upDiscarding || cut.upstream) (s.lcp.downDiscarding || cut.downstream)
    cmu := Cmu.reset
    tst := Tst.reset }

/-- RST rises: the part begins to act, and each gate filter settles at its line's level (R90, R211). -/
def State.rstRise (s : State) : State :=
  { s with
    rstHigh := true
    mtr := { s.mtr with
      gateA := GateFilter.settledAt s.mtr.gateA.line
      gateB := GateFilter.settledAt s.mtr.gateB.line } }

/-- The RESTART answer's last byte has been sent, and the restart takes effect (R178, R181; log 13). The transmitter that the answer
frees then goes on with what the restart left (R161). Without such an answer there is no restart to take effect. -/
def State.restartDue (s : State) (t : PartTime) (cut : Cut) : State :=
  match s.cmu.state with
  | .restartPending .sending => ((s.setLcp { s.lcp with upTx := none }).restart t cut).arbitrate
  | .restartPending .sent => s.restart t cut
  | .restartPending .waiting => s
  | .idle => s

end Sys2Proof.Machine
end

