-- ==== Sys2Proof/Machine/Tables.lean ====
section
/-! DEFINITION. The Table Store (10_tables, R207): layouts of the ten tables, the checks of a write, its effects, and reads. -/

namespace Sys2Proof.Machine

/-- The status codes of an answer (R168). -/
inductive Status where
  | done
  | unknownCommand
  | badTable
  | badIndex
  | badValue
  | locked
  | inUse
  | full
  | pending
  | configError
deriving DecidableEq, Repr

/-- The code of a status (R206). -/
def Status.code : Status → Byte
  | .done => 0
  | .unknownCommand => 1
  | .badTable => 2
  | .badIndex => 3
  | .badValue => 4
  | .locked => 5
  | .inUse => 6
  | .full => 7
  | .pending => 8
  | .configError => 9

/-! ### Indices and lengths (R183, R207) -/

/-- The greatest index of a table (R183). -/
def maxIndex : Nat → Nat
  | 0 => 7
  | 2 => 15
  | 3 => 23
  | 5 => 5
  | 6 => 3
  | _ => 0

/-- The number of bytes of an entry's or a part's contents (R207). -/
def contentsLength : Nat → Nat
  | 0 => 11
  | 1 => 11
  | 2 => 22
  | 3 => 44
  | 4 => 1
  | 5 => 56
  | 6 => 4
  | 7 => 3
  | 8 => 2
  | _ => 1

/-! ### Contents from bytes (R207); bits that no field names are ignored -/

/-- A head entry from its contents. -/
def readHeadEntry (p : Bytes) : HeadEntry where
  enabled   := flagBit p 0 0
  theta     := field p 1 2
  distance  := field p 3 2
  reference := field p 5 2
  limit     := field p 7 2
  threshold := field p 9 2

/-- A tracking record from its contents. -/
def readTracking (p : Bytes) : Tracking where
  nominal    := field p 0 2
  gateDist   := field p 2 2
  scaleLimit := field p 4 1
  gapLimit   := field p 5 2
  hold       := field p 7 2
  filterTime := field p 9 2

/-- A product entry from its contents. -/
def readProduct (p : Bytes) : Product where
  nominalWall := field p 0 2
  lowerTol    := field p 2 2
  upperTol    := field p 4 2
  grade       := field p 6 1
  sectors     := field p 7 1
  segLength   := field p 8 2
  wallLo      := field p 10 2
  wallHi      := field p 12 2
  ampMin      := field p 14 2
  repeatTol   := field p 16 1
  minShots    := field p 17 1
  eccLimit    := field p 18 2
  eccSegLimit := field p 20 2

/-- A grade part from its contents. -/
def readGradePart (p : Bytes) : GradePart :=
  Vector.ofFn fun i : Fin 11 => ⟨field p (4 * i.val) 2, field p (4 * i.val + 2) 2⟩

/-- The eight periods (R24). -/
def periods : List Nat := [1, 2, 3, 4, 6, 8, 12, 16]

/-- A schedule list entry from its seven bytes; none when its kind code names no kind or a field of its kind is out of range (R194).
The fields that a kind lacks are dropped. -/
def readListEntry (p : Bytes) : Option ListEntry :=
  if field p 0 1 = 0 then some .none
  else if field p 0 1 = 2 then
    if field p 1 2 ≤ 60000 then some (.fin (field p 1 2)) else none
  else if field p 0 1 = 1 then
    if field p 1 2 ≤ 60000 ∧ field p 3 1 ≤ 7 ∧ field p 4 1 ∈ periods ∧ field p 5 1 ≤ 15 then
      some (.shot (field p 1 2) (Fin.ofNat 8 (field p 3 1)) (field p 4 1) (field p 5 1)
        (Fin.ofNat 4 (field p 6 1)) (flagBit p 6 7))
    else none
  else none

/-- Entry `i` of a list part's contents. -/
def readPartEntry (p : Bytes) (i : Nat) : Option ListEntry :=
  readListEntry ((p.drop (7 * i)).take 7)

/-- A list part from its contents. -/
def readListPart (p : Bytes) : ListPart :=
  Vector.ofFn fun i : Fin 8 => (readPartEntry p i.val).getD .none

/-- A window profile from its contents. -/
def readProfile (p : Bytes) : Profile := ⟨field p 0 2, field p 2 2⟩

/-- A calibration setup from its contents. -/
def readCalSetup (p : Bytes) : CalSetup := ⟨field p 0 2, flagBit p 2 0⟩

/-! ### Contents as bytes (R207) -/

/-- The contents of a head entry. -/
def headEntryBytes (e : HeadEntry) : Bytes :=
  [byteOf (flagNat e.enabled)] ++ be16 e.theta ++ be16 e.distance ++ be16 e.reference ++ be16 e.limit ++ be16 e.threshold

/-- The contents of a tracking record. -/
def trackingBytes (x : Tracking) : Bytes :=
  be16 x.nominal ++ be16 x.gateDist ++ [byteOf x.scaleLimit] ++ be16 x.gapLimit ++ be16 x.hold ++ be16 x.filterTime

/-- The contents of a product entry. -/
def productBytes (p : Product) : Bytes :=
  be16 p.nominalWall ++ be16 p.lowerTol ++ be16 p.upperTol ++ [byteOf p.grade, byteOf p.sectors] ++ be16 p.segLength
    ++ be16 p.wallLo ++ be16 p.wallHi ++ be16 p.ampMin ++ [byteOf p.repeatTol, byteOf p.minShots]
    ++ be16 p.eccLimit ++ be16 p.eccSegLimit

/-- The contents of a grade part. -/
def gradePartBytes (g : GradePart) : Bytes :=
  g.toList.flatMap fun x => be16 x.velocity ++ be16 x.shrink

/-- The seven bytes of a schedule list entry. -/
def listEntryBytes : ListEntry → Bytes
  | .none => [0, 0, 0, 0, 0, 0, 0]
  | .fin o => [2] ++ be16 o ++ [0, 0, 0, 0]
  | .shot o h p phase w steal =>
    [1] ++ be16 o ++ [byteOf h.val, byteOf p, byteOf phase, byteOf (w.val + 128 * flagNat steal)]

/-- The contents of a list part. -/
def listPartBytes (x : ListPart) : Bytes :=
  x.toList.flatMap listEntryBytes

/-- The contents of a window profile. -/
def profileBytes (x : Profile) : Bytes := be16 x.measure ++ be16 x.calibrate

/-- The contents of a calibration setup. -/
def calSetupBytes (x : CalSetup) : Bytes := be16 x.interval ++ [byteOf (flagNat x.defer)]

/-! ### Range checks, step 6 of R184 -/

/-- A figure lies in a range, its ends included. -/
def within (lo hi n : Nat) : Bool := decide (lo ≤ n) && decide (n ≤ hi)

/-- The ranges of a head entry (R188). -/
def HeadEntry.inRange (e : HeadEntry) : Bool :=
  within 0 4095 e.theta && within 101 13000 e.distance && within 2000 60000 e.reference && within 0 2048 e.limit
    && within 0 4095 e.threshold

/-- The ranges of the tracking record (R190). -/
def Tracking.inRange (x : Tracking) : Bool :=
  within 256 65535 x.nominal && within 100 5000 x.gateDist && within 1 64 x.scaleLimit && within 100 50000 x.gapLimit
    && within 0 500 x.hold && within 0 10000 x.filterTime

/-- The ranges of a product entry (R191). -/
def Product.inRange (p : Product) : Bool :=
  within 0 7 p.grade && [8, 16, 32].contains p.sectors && within 50 1000 p.segLength && within 1000 65535 p.wallLo
    && within 1000 65535 p.wallHi && within 0 4095 p.ampMin && within 0 255 p.repeatTol && within 1 20 p.minShots
    && within 1 2000 p.eccLimit && within 0 1023 p.eccSegLimit

/-- The ranges of a grade point (R192). -/
def GradePoint.inRange (x : GradePoint) : Bool :=
  within 30000 65000 x.velocity && within 49152 65535 x.shrink

/-- The ranges of a grade part (R192). -/
def GradePart.inRange (g : GradePart) : Bool :=
  g.toList.all GradePoint.inRange

/-- The range check of contents of the right length (R184 step 6). -/
def contentsInRange (table : Nat) (c : Bytes) : Bool :=
  match table with
  | 0 => (readHeadEntry c).inRange
  | 1 => (readTracking c).inRange
  | 2 => (readProduct c).inRange
  | 3 => GradePart.inRange (readGradePart c)
  | 4 => within 1 48 (field c 0 1)
  | 5 => (List.range 8).all fun i => (readPartEntry c i).isSome
  | 6 => within 20 5000 (readProfile c).measure && within 20 5000 (readProfile c).calibrate
  | 7 => within 0 3600 (readCalSetup c).interval
  | 8 => true
  | _ => within 1 15 (field c 0 1)

/-! ### Cross-table constraints, step 7 of R184 -/

/-- P_h lies above G and at or below G + 8000 (R188, R190). -/
def standsClear (gateDist distance : Nat) : Bool :=
  decide (gateDist < distance) && decide (distance ≤ gateDist + 8000)

/-- The cross-table constraints of contents (R188, R190, R191). -/
def State.contentsConsistent (s : State) (table : Nat) (c : Bytes) : Bool :=
  match table with
  | 0 => !(readHeadEntry c).enabled || s.tst.tracking.all fun x => standsClear x.gateDist (readHeadEntry c).distance
  | 1 => allHeads.all fun h => !s.enabled h || standsClear (readTracking c).gateDist (s.headEntry h).distance
  | 2 => decide ((readProduct c).wallLo < (readProduct c).wallHi)
  | _ => true

/-! ### The locks, steps 4 and 5 of R184 -/

/-- The write is LOCKED (R187). -/
def State.writeLocked (s : State) (table : Nat) : Bool :=
  [0, 4, 5, 6].contains table && (s.fsc.state == .running || s.fsc.state == .stopping)

/-- The write is refused IN_USE (R186, R189, R190). -/
def State.writeInUse (s : State) (table index : Nat) : Bool :=
  match table with
  | 0 => s.someLive
  | 1 => s.someLive
  | 2 => s.anyCtx fun c => c.productBound && c.product.val == index
  | 3 => s.anyCtx fun c => c.curveBound && c.grade.any fun g => g.val == index / 3
  | _ => false

/-- The checks of a write in their order; none when every check passes (R184). -/
def State.writeRefusal (s : State) (table index : Nat) (c : Bytes) : Option Status :=
  if 9 < table then some .badTable
  else if maxIndex table < index then some .badIndex
  else if c.length ≠ contentsLength table then some .badValue
  else if s.writeLocked table then some .locked
  else if s.writeInUse table index then some .inUse
  else if !contentsInRange table c then some .badValue
  else if !s.contentsConsistent table c then some .badValue
  else none

/-! ### An accepted write (R185, R189, R193, R196) -/

/-- A grade part stored; a write of part 0 clears parts 1 and 2 (R193). -/
def storeGrade (grades : Vector (Option GradePart) 24) (index : Nat) (g : GradePart) : Vector (Option GradePart) 24 :=
  if index % 3 = 0 then
    ((grades.setIfInBounds index (some g)).setIfInBounds (index + 1) none).setIfInBounds (index + 2) none
  else grades.setIfInBounds index (some g)

/-- The whole entry or part is replaced and loaded (R185). -/
def Tst.store (x : Tst) (table index : Nat) (c : Bytes) : Tst :=
  match table with
  | 0 => { x with heads := x.heads.setIfInBounds index (some (readHeadEntry c)) }
  | 1 => { x with tracking := some (readTracking c) }
  | 2 => { x with products := x.products.setIfInBounds index (some (readProduct c)) }
  | 3 => { x with grades := storeGrade x.grades index (readGradePart c) }
  | 4 => { x with header := some (field c 0 1) }
  | 5 => { x with lists := x.lists.setIfInBounds index (some (readListPart c)) }
  | 6 => { x with profiles := x.profiles.setIfInBounds index (some (readProfile c)) }
  | 7 => { x with calSetup := some (readCalSetup c) }
  | 8 => { x with pattern := some (BitVec.ofNat 16 (field c 0 2)) }
  | _ => { x with share := some (field c 0 1) }

/-- The effects of an accepted write on the other blocks (R185): the head record and the level (R189), the timer (R58). -/
def State.writeEffects (s : State) (t : PartTime) (table index : Nat) : State :=
  match table with
  | 0 => s.headWritten (headAt index)
  | 7 => s.setupWritten t
  | _ => s

/-- WRITE_TABLE at part time `t` (R184, R185). -/
def State.writeTable (s : State) (t : PartTime) (table index : Nat) (c : Bytes) : State × Status :=
  match s.writeRefusal table index c with
  | some st => (s, st)
  | none => ((s.setTst (s.tst.store table index c)).writeEffects t table index, .done)

/-! ### Reading a table (R197) -/

/-- The contents of an entry or part as TST holds it; an unloaded one reads as all fields 0 (R197). -/
def Tst.contents (x : Tst) (table index : Nat) : Bytes :=
  match table with
  | 0 => headEntryBytes ((x.heads[index]?.join).getD HeadEntry.unloaded)
  | 1 => trackingBytes (x.tracking.getD Tracking.unloaded)
  | 2 => productBytes ((x.products[index]?.join).getD Product.unloaded)
  | 3 => gradePartBytes ((x.grades[index]?.join).getD GradePart.unloaded)
  | 4 => [byteOf (x.header.getD 0)]
  | 5 => listPartBytes ((x.lists[index]?.join).getD ListPart.unloaded)
  | 6 => profileBytes ((x.profiles[index]?.join).getD ⟨0, 0⟩)
  | 7 => calSetupBytes (x.calSetup.getD ⟨0, false⟩)
  | 8 => be16 (x.pattern.getD 0).toNat
  | _ => [byteOf (x.share.getD 0)]

/-- The loaded flag of an entry or part (R183). -/
def Tst.loaded (x : Tst) (table index : Nat) : Bool :=
  match table with
  | 0 => (x.heads[index]?.join).isSome
  | 1 => x.tracking.isSome
  | 2 => (x.products[index]?.join).isSome
  | 3 => (x.grades[index]?.join).isSome
  | 4 => x.header.isSome
  | 5 => (x.lists[index]?.join).isSome
  | 6 => (x.profiles[index]?.join).isSome
  | 7 => x.calSetup.isSome
  | 8 => x.pattern.isSome
  | _ => x.share.isSome

/-- The flags byte of a read: bit 0 loaded, bit 1 the curve's complete flag for a grade part (R206). -/
def Tst.readFlags (x : Tst) (table index : Nat) : Byte :=
  byteOf (packBits [x.loaded table index, table == 3 && x.curveComplete (index / 3)])

/-- READ_TABLE: the status and the result data (R197, R206). -/
def State.readTable (s : State) (table index : Nat) : Status × Bytes :=
  if 9 < table then (.badTable, [])
  else if maxIndex table < index then (.badIndex, [])
  else (.done, [byteOf table, byteOf index, s.tst.readFlags table index] ++ s.tst.contents table index)

end Sys2Proof.Machine
end

