-- ==== Sys2Proof/Machine/Commands.lean ====
section
/-! DEFINITION. The Command Unit (09_commands): taking a command, its checks, the owners' actions, answers, STATUS, the scratch words
and the capture record; and arrival at the upstream port, which hands commands over (R150, R151). -/

namespace Sys2Proof.Machine

/-- What a command comes to: the state it leaves, the status code and the result data of its answer (R165, R168). -/
structure Reply where
  state  : State
  status : Status
  data   : Bytes

/-! ### The capture block and the status record (R169, R208) -/

/-- The code of a capture kind: 1..19 in the order of R175 (R208). -/
def CaptureKind.code : CaptureKind → Nat
  | .triggerSkip => 1
  | .lateReply => 2
  | .unsolicited => 3
  | .motionOrder => 4
  | .untracked => 5
  | .outOfRange => 6
  | .gateUnconfigured => 7
  | .gateSequence => 8
  | .duplicateShot => 9
  | .staleShot => 10
  | .resolveOverflow => 11
  | .gateOverflow => 12
  | .resultOverflow => 13
  | .lineFrameCheck => 14
  | .unknownKind => 15
  | .forwardOverflow => 16
  | .headFrameCheck => 17
  | .malformedShot => 18
  | .commandOverrun => 19

/-- The code of a capture source (R208). -/
def CaptureSource.code : CaptureSource → Nat
  | .head h => h.val
  | .headLink => 16
  | .upstream => 17
  | .downstream => 18
  | .gates => 19

/-- The nine bytes of the capture record (R208). -/
def Cmu.captureBlock (c : Cmu) : Bytes :=
  match c.capture with
  | some a =>
    [byteOf (packBits [true, c.more]), byteOf a.kind.code, byteOf a.source.code] ++ be32 a.time.toNat ++ be16 a.detail
  | none => [byteOf (packBits [false, c.more]), 0, 0] ++ be32 0 ++ be16 0

/-- The nine bytes of a head in the status record (R208). -/
def headBlock (r : HeadRecord) : Bytes :=
  [byteOf r.state.code, byteOf r.miss, byteOf r.history.toNat, byteOf (flagNat (!r.usable))] ++ be32 r.k ++ [byteOf r.cal.code]

/-- The four bytes of a shell context in the status record; a FREE context has number and product 0 (R169, R208). -/
def contextBlock (c : Option ShellContext) : Bytes :=
  [byteOf (phaseCode c)] ++ be16 ((c.map ShellContext.shell).getD 0) ++ [byteOf ((c.map fun x => x.product.val).getD 0)]

/-- The ten fills of the status record (R169, R208). -/
def State.fills (s : State) : Bytes :=
  [byteOf s.mtr.history.length, byteOf s.rsq.shots, byteOf s.rsq.gates, byteOf s.wmb.window.length,
    byteOf s.mtr.announce.length, byteOf s.rqu.segments, byteOf s.rqu.shells, byteOf s.rqu.reservations,
    byteOf s.lcp.down.length, byteOf s.lcp.up.length]

/-- The status record: 114 bytes, read whole (R169, R208). -/
def State.statusRecord (s : State) : Bytes :=
  [byteOf s.fsc.state.code, byteOf s.fsc.level.code, byteOf s.fsc.cycleCount, byteOf (flagNat s.fsc.lastShort)]
    ++ allHeads.flatMap (fun h => headBlock (s.head h))
    ++ [byteOf (match s.hcu.request with | some h => h.val | none => 255), byteOf s.hcu.pointer.val]
    ++ contextBlock (s.ctx 0) ++ contextBlock (s.ctx 1)
    ++ s.fills ++ s.cmu.captureBlock
    ++ be16 s.cmu.scratch0.toNat ++ be16 s.cmu.scratch1.toNat
    ++ [s.lcp.address] ++ be32 s.partTime.toNat

/-! ### The owners' actions -/

/-- READ_TABLE (R197). -/
def State.actReadTable (s : State) (args : Bytes) : Reply :=
  let r := s.readTable (field args 0 1) (field args 1 1)
  ⟨s, r.1, r.2⟩

/-- WRITE_TABLE (R184). -/
def State.actWriteTable (s : State) (t : PartTime) (args : Bytes) : Reply :=
  let r := s.writeTable t (field args 0 1) (field args 1 1) (args.drop 2)
  ⟨r.1, r.2, []⟩

/-- START (R26, R28): CONFIG_ERROR carries the offending index. -/
def State.actStart (s : State) (t : PartTime) : Reply :=
  match s.startSchedule t with
  | (s', none) => ⟨s', .done, []⟩
  | (s', some n) => ⟨s', .configError, [byteOf n]⟩

/-- STOP (R29). -/
def State.actStop (s : State) : Reply :=
  ⟨s.stopSchedule, .done, []⟩

/-- ANNOUNCE (R79). -/
def State.actAnnounce (s : State) (args : Bytes) : Reply :=
  if 15 < field args 0 1 then ⟨s, .badIndex, []⟩
  else if 4 ≤ s.mtr.announce.length then ⟨s, .full, []⟩
  else ⟨s.setMtr { s.mtr with announce := s.mtr.announce ++ [Fin.ofNat 16 (field args 0 1)] }, .done, []⟩

/-- REQUEST_CAL (R60). -/
def State.actRequestCal (s : State) (args : Bytes) : Reply :=
  if 7 < field args 0 1 then ⟨s, .badIndex, []⟩
  else if !s.enabled (headAt (field args 0 1)) then ⟨s, .badValue, []⟩
  else if s.hcu.request.isSome then ⟨s, .pending, []⟩
  else ⟨s.setHcu { s.hcu with request := some (headAt (field args 0 1)) }, .done, []⟩

/-- SET_ADDRESS (R155). -/
def State.actSetAddress (s : State) (args : Bytes) : Reply :=
  if 253 < field args 0 1 then ⟨s, .badValue, []⟩
  else ⟨s.setLcp { s.lcp with address := byteOf (field args 0 1) }, .done, []⟩

/-- STATUS (R169, R170). -/
def State.actStatus (s : State) : Reply :=
  ⟨s, .done, s.statusRecord⟩

/-- SET_SCRATCH (R171): the answer carries the value held before. -/
def State.actSetScratch (s : State) (args : Bytes) : Reply :=
  let value := BitVec.ofNat 16 (field args 1 2)
  match field args 0 1 with
  | 0 => ⟨s.setCmu { s.cmu with scratch0 := value }, .done, be16 s.cmu.scratch0.toNat⟩
  | 1 => ⟨s.setCmu { s.cmu with scratch1 := value }, .done, be16 s.cmu.scratch1.toNat⟩
  | _ => ⟨s, .badIndex, []⟩

/-- CLEAR_CAPTURE (R176): the answer carries the record as it stood. -/
def State.actClearCapture (s : State) : Reply :=
  ⟨s.setCmu { s.cmu with capture := none, more := false }, .done, s.cmu.captureBlock⟩

/-- RESTART: an addressed one waits for its answer, a broadcast one takes effect at once (R178, R180). -/
def State.actRestart (s : State) (t : PartTime) (isBroadcast : Bool) (cut : Cut) : Reply :=
  if isBroadcast then ⟨s.restart t cut, .done, []⟩
  else ⟨s.setCmu { s.cmu with state := .restartPending .waiting }, .done, []⟩

/-! ### The checks of a command (R164, R206) -/

/-- The arguments have the length that the command requires (R164 check 2, R206). WRITE_TABLE's contents are checked by TST. -/
def lengthOk (code : Nat) (args : Bytes) : Bool :=
  match code with
  | 1 => args.length == 2
  | 2 => decide (2 ≤ args.length)
  | 5 => args.length == 1
  | 6 => args.length == 1
  | 7 => args.length == 1
  | 9 => args.length == 3
  | _ => args.length == 0

/-- The owner of a command code acts, the length being right; a code that names no command is UNKNOWN_COMMAND (R164, R206). -/
def State.owner (s : State) (t : PartTime) (code : Nat) (args : Bytes) (isBroadcast : Bool) (cut : Cut) : Reply :=
  match code with
  | 1 => s.actReadTable args
  | 2 => s.actWriteTable t args
  | 3 => s.actStart t
  | 4 => s.actStop
  | 5 => s.actAnnounce args
  | 6 => s.actRequestCal args
  | 7 => s.actSetAddress args
  | 8 => s.actStatus
  | 9 => s.actSetScratch args
  | 10 => s.actClearCapture
  | 11 => s.actRestart t isBroadcast cut
  | _ => ⟨s, .unknownCommand, []⟩

/-- The checks of R164 in their order, then the owner. -/
def State.runCommand (s : State) (t : PartTime) (f : LineFrame) (cut : Cut) : Reply :=
  match f.payload with
  | [] => ⟨s, .unknownCommand, []⟩
  | code :: args =>
    if code.toNat = 0 ∨ 11 < code.toNat then ⟨s, .unknownCommand, []⟩
    else if lengthOk code.toNat args then s.owner t code.toNat args (f.dest == broadcast) cut
    else ⟨s, .badValue, []⟩

/-! ### Answers and taking a command (R162, R163, R165, R166) -/

/-- The answer frame to a command, formed after the owner has acted (R156, R165). -/
def answerFrame (s : State) (f : LineFrame) (status : Status) (data : Bytes) : LineFrame :=
  ⟨f.source, s.lcp.address, kindAnswer, f.tag, status.code :: data⟩

/-- The answer is placed in the answer slot, which claims the upstream transmitter (R156, R157, R165). -/
def Reply.answered (r : Reply) (f : LineFrame) : State :=
  (r.state.setLcp { r.state.lcp with slot := some (answerFrame r.state f r.status r.data) }).claim .answer

/-- CMU drops commands: the answer slot holds an answer or a restart is pending (R163). -/
def State.commandBusy (s : State) : Bool :=
  s.lcp.slot.isSome || s.cmu.state != .idle

/-- The detail of COMMAND_OVERRUN; an empty payload reports command code 0 (R163). -/
def overrunDetail (f : LineFrame) : Nat :=
  256 * (f.payload.headD 0).toNat + f.tag.toNat

/-- CMU takes a COMMAND frame that LCP consumes (R162, R163, R165, R166). -/
def State.takeCommand (s : State) (t : PartTime) (f : LineFrame) (cut : Cut) : State :=
  if s.commandBusy then s.report .commandOverrun .upstream t (overrunDetail f)
  else if f.dest = broadcast then (s.runCommand t f cut).state
  else (s.runCommand t f cut).answered f

/-! ### Arrival at the upstream port (R150, R151) -/

/-- A frame is consumed: a command goes to CMU, any other kind is discarded with UNKNOWN_KIND (R151). -/
def State.consume (s : State) (t : PartTime) (f : LineFrame) (cut : Cut) : State :=
  if f.kind = kindCommand then s.takeCommand t f cut else s.report .unknownKind .upstream t (frameDetail f)

/-- A checked frame arrives at the upstream port (R150). A broadcast's copy is entered before the frame is consumed. -/
def State.upstreamArrival (s : State) (t : PartTime) (f : LineFrame) (cut : Cut) : State :=
  if s.lcp.upDiscarding then s
  else if f.dest = broadcast then (s.enterDown t f).consume t f cut
  else if f.dest = s.lcp.address then s.consume t f cut
  else s.enterDown t f

/-- A checked frame arrives at the downstream port (R152). -/
def State.downstreamArrival (s : State) (t : PartTime) (f : LineFrame) : State :=
  if s.lcp.downDiscarding then s else s.enterUp t f

/-- The COMMAND frame of a command (R164, R206). -/
def commandFrame (h : CommandHeader) (code : Byte) (args : Bytes) : LineFrame :=
  ⟨h.dest, h.source, kindCommand, h.tag, code :: args⟩

/-! ### Frame checks and idle lines (R149, R202) -/

/-- The bytes received for a frame at the upstream port: a discarded frame is captured, a good one arrives (R149, R202; log 10). A frame cut
short is captured at the part time of its discard (log 27, DESIGN CHOICE). -/
def State.upstreamBytes (s : State) (t : PartTime) (received : Bytes) : State :=
  if s.lcp.upDiscarding then s
  else
    match receiveLine received with
    | .nothing => s
    | .frame f => s.upstreamArrival t f Cut.nothing
    | .discard n resync =>
      let s1 := s.report .lineFrameCheck .upstream t (min 65535 n)
      s1.setLcp { s1.lcp with upDiscarding := resync }

/-- The bytes received for a frame at the downstream port (R149, R202; log 10, and log 27 for the part time of a frame cut short). -/
def State.downstreamBytes (s : State) (t : PartTime) (received : Bytes) : State :=
  if s.lcp.downDiscarding then s
  else
    match receiveLine received with
    | .nothing => s
    | .frame f => s.downstreamArrival t f
    | .discard n resync =>
      let s1 := s.report .lineFrameCheck .downstream t (min 65535 n)
      s1.setLcp { s1.lcp with downDiscarding := resync }

/-- A receiver's line has been idle for two byte times: a receiver that was discarding begins a frame at the next byte (R161, R202). -/
def State.fallsIdle (s : State) : Receiver → State
  | .headLink => s.setHlp { s.hlp with discarding := false }
  | .upstream => s.setLcp { s.lcp with upDiscarding := false }
  | .downstream => s.setLcp { s.lcp with downDiscarding := false }

end Sys2Proof.Machine
end

