-- ==== Sys2Proof/Machine/CommandMeanings.lean ====
section
/-! DEFINITION. The meanings of the eleven commands of the line computer: each is the arrival of its COMMAND frame at the upstream
port (R150, R162), the command code being R206's. A frame for another station is forwarded, and a command is dropped, checked,
executed and answered as chapter 9 says; the owner's action is in Machine/Commands.lean. -/

namespace Sys2Proof.Machine

open Host

/-- A COMMAND frame arrives at the upstream port while the part acts (R150, R211). -/
def State.commandArrives (s : State) (t : PartTime) (h : CommandHeader) (code : Byte) (args : Bytes) (cut : Cut) : State :=
  acting t s fun s => s.upstreamArrival t (commandFrame h code args) cut

/-- READ_TABLE (R197). -/
def execReadTable (t : PartTime) (h : CommandHeader) (args : Bytes) (s : State) : Outcome State Fault Refusal :=
  .next (s.commandArrives t h 1 args Cut.nothing)

/-- WRITE_TABLE (R184, R185). -/
def execWriteTable (t : PartTime) (h : CommandHeader) (args : Bytes) (s : State) : Outcome State Fault Refusal :=
  .next (s.commandArrives t h 2 args Cut.nothing)

/-- START (R26 to R28). -/
def execStart (t : PartTime) (h : CommandHeader) (args : Bytes) (s : State) : Outcome State Fault Refusal :=
  .next (s.commandArrives t h 3 args Cut.nothing)

/-- STOP (R29). -/
def execStop (t : PartTime) (h : CommandHeader) (args : Bytes) (s : State) : Outcome State Fault Refusal :=
  .next (s.commandArrives t h 4 args Cut.nothing)

/-- ANNOUNCE (R79). -/
def execAnnounce (t : PartTime) (h : CommandHeader) (args : Bytes) (s : State) : Outcome State Fault Refusal :=
  .next (s.commandArrives t h 5 args Cut.nothing)

/-- REQUEST_CAL (R60). -/
def execRequestCal (t : PartTime) (h : CommandHeader) (args : Bytes) (s : State) : Outcome State Fault Refusal :=
  .next (s.commandArrives t h 6 args Cut.nothing)

/-- SET_ADDRESS (R155). -/
def execSetAddress (t : PartTime) (h : CommandHeader) (args : Bytes) (s : State) : Outcome State Fault Refusal :=
  .next (s.commandArrives t h 7 args Cut.nothing)

/-- STATUS (R169, R170). -/
def execStatus (t : PartTime) (h : CommandHeader) (args : Bytes) (s : State) : Outcome State Fault Refusal :=
  .next (s.commandArrives t h 8 args Cut.nothing)

/-- SET_SCRATCH (R171). -/
def execSetScratch (t : PartTime) (h : CommandHeader) (args : Bytes) (s : State) : Outcome State Fault Refusal :=
  .next (s.commandArrives t h 9 args Cut.nothing)

/-- CLEAR_CAPTURE (R176). -/
def execClearCapture (t : PartTime) (h : CommandHeader) (args : Bytes) (s : State) : Outcome State Fault Refusal :=
  .next (s.commandArrives t h 10 args Cut.nothing)

/-- RESTART (R178, R180). -/
def execRestart (t : PartTime) (h : CommandHeader) (args : Bytes) (cut : Cut) (s : State) : Outcome State Fault Refusal :=
  .next (s.commandArrives t h 11 args cut)

end Sys2Proof.Machine
end

