-- ==== Sys2Proof/Config.lean ====
section
/-! DEFINITION. What the spec leaves open, as constants without a body: nothing can be proved about their values. -/

namespace Sys2Proof.Config

/-- FREE VALUE (log 9). The byte that stands for a payload field which a frame is too short to hold, where a capture reports that
field all the same (R174 and R204: the echo count and the shot sequence of a malformed shot report). The argument is the number
of free values consumed before it, so that no two uses are tied together. -/
opaque freeByte : Nat → Byte

end Sys2Proof.Config
end

