-- ==== Sys2Proof/Machine/HeadLink.lean ====
section
/-! DEFINITION. The Head Link Port's receiving side (R202 to R205): routing, the shot report's payload check, and discards. -/

namespace Sys2Proof.Machine

/-! ### Payloads (R203 to R205) -/

/-- An echo from its four bytes: the time in the upper 20 bits, the amplitude in the lower 12 (R204). -/
def readEcho (p : Bytes) : Echo :=
  ⟨field p 0 4 / 4096, field p 0 4 % 4096⟩

/-- The echo list of a shot report's payload (R204, R205). -/
def readEchoes (p : Bytes) : List Echo :=
  (groups (field p 9 1) 4 (p.drop 10)).map readEcho

/-- The echo times are strictly ascending (R204). -/
def ascending : List Echo → Bool
  | [] => true
  | [_] => true
  | a :: b :: rest => decide (a.time < b.time) && ascending (b :: rest)

/-- The fire kind of a kind byte, when it is one (R204). -/
def readKind (n : Nat) : Option FireKind :=
  if n = 0 then some .measure else if n = 1 then some .calibrate else none

/-- A shot report's payload, when it is well formed (R204). -/
def readShotReport (p : Bytes) : Option ShotReport :=
  if p.length < 10 then none
  else if 6 < field p 9 1 then none
  else if p.length ≠ 10 + 4 * field p 9 1 then none
  else if !ascending (readEchoes p) then none
  else (readKind (field p 1 1)).map fun kind =>
    { seq := byteOf (field p 0 1), kind := kind, time := BitVec.ofNat 32 (field p 2 4), temp := field p 6 2
      energyLow := flagBit p 8 0, echoes := readEchoes p }

/-- The sample and fault flag of a motion report's payload; the rotation's upper four bits are ignored (R203, R205). -/
def readMotion (p : Bytes) : Sample × Bool :=
  (⟨BitVec.ofNat 32 (field p 0 4), BitVec.ofNat 32 (field p 4 4), BitVec.ofNat 12 (field p 8 2)⟩, flagBit p 10 0)

/-! ### Malformed shot reports (R174, R204) -/

/-- The detail of MALFORMED_SHOT: echo count field and shot sequence (R174). FREE VALUE (log 9): a field that the payload is too short
to hold reads as a free byte. -/
def malformedDetail (free : Nat) (p : Bytes) : Nat :=
  256 * (p.getD 9 (Config.freeByte (free + 1))).toNat + (p.getD 0 (Config.freeByte free)).toNat

/-- A malformed shot report is discarded and captured; its fire stays as it is (R204). -/
def State.malformedShot (s : State) (t : PartTime) (h : Fin 8) (p : Bytes) : State :=
  let s1 := s.report .malformedShot (.head h) t (malformedDetail s.freeCount p)
  if p.length < 10 then s1.setFree (s.freeCount + 2) else s1

/-! ### Routing (R203) -/

/-- A SHOT_REPORT of a head (R203, R204). -/
def State.shotFrame (s : State) (t : PartTime) (h : Fin 8) (p : Bytes) : State :=
  match readShotReport p with
  | some r => s.matchReport t h r
  | none => s.malformedShot t h p

/-- A MOTION_REPORT of the motion node; a length other than 11 is reported as HEAD_FRAME_CHECK (R203). -/
def State.motionFrame (s : State) (t : PartTime) (p : Bytes) : State :=
  if p.length = 11 then s.motionSample t (readMotion p).1 (readMotion p).2
  else s.report .headFrameCheck .headLink t (min 65535 (5 + p.length))

/-- The head of a node 1..8 (R37). -/
def headOfNode (node : Byte) : Fin 8 := headAt (node.toNat - 1)

/-- A checked head link frame is routed by its kind and node, and taken at once (R203). -/
def State.headArrival (s : State) (t : PartTime) (f : HeadFrame) : State :=
  if s.hlp.discarding then s
  else if f.kind = kindShotReport ∧ 1 ≤ f.node.toNat ∧ f.node.toNat ≤ 8 then s.shotFrame t (headOfNode f.node) f.payload
  else if f.kind = kindMotionReport ∧ f.node = 14 then s.motionFrame t f.payload
  else s.report .unknownKind .headLink t (256 * f.node.toNat + f.kind.toNat)

/-- The bytes received for a head link frame: a discarded frame is captured, a good one is routed (R202; log 10). A frame cut short is
captured at the part time of its discard (R174; log 27, DESIGN CHOICE). -/
def State.headLinkBytes (s : State) (t : PartTime) (received : Bytes) : State :=
  if s.hlp.discarding then s
  else
    match receiveHead received with
    | .nothing => s
    | .frame f => s.headArrival t f
    | .discard n resync =>
      let s1 := s.report .headFrameCheck .headLink t (min 65535 n)
      s1.setHlp { s1.hlp with discarding := resync }

/-- The head link transmitter has finished a frame and sends the next of its queue (R205). -/
def State.headTransmitDone (s : State) : State :=
  s.setHlp { s.hlp with queue := s.hlp.queue.drop 1 }

end Sys2Proof.Machine
end

