-- ==== Sys2Proof/Machine/EventMeanings.lean ====
section
/-! DEFINITION. The meanings of the resets, of the arrivals and transmissions on the three links, of the timed events and of the gate
lines. The part acts only while RST is high (R211): an event that falls while it is low leaves the cold reset state, but for the
level of a gate line. -/

namespace Sys2Proof.Machine

open Host

/-! ### Resets -/

/-- RESTART_TAKES_EFFECT (R178, R181). -/
def execRestartTakesEffect (t : PartTime) (cut : Cut) (s : State) : Outcome State Fault Refusal :=
  .next (acting t s fun s => s.restartDue t cut)

/-- COLD_RESET (R182): it takes effect at once, whatever the part's state. -/
def execColdReset (t : PartTime) (cut : Cut) (s : State) : Outcome State Fault Refusal :=
  .next ((s.setTime t).coldReset cut)

/-- RST_RISE (R211). An RST that is high does not rise. -/
def execRstRise (t : PartTime) (s : State) : Outcome State Fault Refusal :=
  .next (if s.rstHigh then s.setTime t else (s.setTime t).rstRise)

/-! ### The head link -/

/-- SHOT_REPORT (R37, R203, R204). -/
def execShotReport (t : PartTime) (node : Byte) (payload : Bytes) (s : State) : Outcome State Fault Refusal :=
  .next (acting t s fun s => s.headArrival t ⟨node, kindShotReport, payload⟩)

/-- MOTION_REPORT (R67, R68, R203). -/
def execMotionReport (t : PartTime) (node : Byte) (payload : Bytes) (s : State) : Outcome State Fault Refusal :=
  .next (acting t s fun s => s.headArrival t ⟨node, kindMotionReport, payload⟩)

/-- HEAD_LINK_UNKNOWN_KIND (R203): the frame is routed by its kind and node, which no row of the routing table but the last fits. -/
def execHeadLinkUnknownKind (t : PartTime) (node kind : Byte) (payload : Bytes) (s : State) : Outcome State Fault Refusal :=
  .next (acting t s fun s => s.headArrival t ⟨node, kind, payload⟩)

/-- HEAD_FRAME_CHECK (R202, R174). -/
def execHeadFrameCheck (t : PartTime) (received : Bytes) (s : State) : Outcome State Fault Refusal :=
  .next (acting t s fun s => s.headLinkBytes t received)

/-- HEAD_LINK_TRANSMIT_DONE (R205). -/
def execHeadLinkTransmitDone (t : PartTime) (s : State) : Outcome State Fault Refusal :=
  .next (acting t s fun s => s.headTransmitDone)

/-! ### The line chain -/

/-- UPSTREAM_FRAME_ARRIVAL (R150, R151). -/
def execUpstreamFrameArrival (t : PartTime) (f : LineFrame) (s : State) : Outcome State Fault Refusal :=
  .next (acting t s fun s => s.upstreamArrival t f Cut.nothing)

/-- DOWNSTREAM_FRAME_ARRIVAL (R152). -/
def execDownstreamFrameArrival (t : PartTime) (f : LineFrame) (s : State) : Outcome State Fault Refusal :=
  .next (acting t s fun s => s.downstreamArrival t f)

/-- LINE_FRAME_CHECK (R149, R202). -/
def execLineFrameCheck (t : PartTime) (port : ChainPort) (received : Bytes) (s : State) : Outcome State Fault Refusal :=
  .next (acting t s fun s =>
    match port with
    | .upstream => s.upstreamBytes t received
    | .downstream => s.downstreamBytes t received)

/-- UPSTREAM_TRANSMITTER_FREE (R157). -/
def execUpstreamTransmitterFree (t : PartTime) (s : State) : Outcome State Fault Refusal :=
  .next (acting t s fun s => s.upstreamFree)

/-- DOWNSTREAM_TRANSMITTER_FREE (R159). -/
def execDownstreamTransmitterFree (t : PartTime) (s : State) : Outcome State Fault Refusal :=
  .next (acting t s fun s => s.downstreamFree)

/-- LINE_FALLS_IDLE (R202). -/
def execLineFallsIdle (t : PartTime) (port : Receiver) (s : State) : Outcome State Fault Refusal :=
  .next (acting t s fun s => s.fallsIdle port)

/-! ### The timed events, dated by the state -/

/-- CYCLE_END (R32). -/
def execCycleEnd (s : State) : Outcome State Fault Refusal :=
  .next (actingTimed s fun s => s.endCycle)

/-- FIRING_POINT (R33 to R35). -/
def execFiringPoint (entry : Fin 48) (s : State) : Outcome State Fault Refusal :=
  .next (actingTimed s fun s => s.reachEntry entry.val)

/-- REPLY_WINDOW_EXPIRY (R39). -/
def execReplyWindowExpiry (head : Fin 8) (s : State) : Outcome State Fault Refusal :=
  .next (actingTimed s fun s => s.windowExpiry head)

/-- CALIBRATION_TIMER_EXPIRY (R58, R59). -/
def execCalibrationTimerExpiry (s : State) : Outcome State Fault Refusal :=
  .next (actingTimed s fun s => s.timerExpiry)

/-- GATE_FILTER_EXPIRY (R73, R74). -/
def execGateFilterExpiry (line : GateLine) (s : State) : Outcome State Fault Refusal :=
  .next (actingTimed s fun s => s.filterExpiry line)

/-! ### The gate lines -/

/-- GATE_LINE_CHANGE (R73). While RST is low the line's level alone is followed, for the filter to settle at when RST rises (R211). -/
def execGateLineChange (t : PartTime) (line : GateLine) (high : Bool) (s : State) : Outcome State Fault Refusal :=
  .next (if s.rstHigh then whole (s.setTime t) fun s => s.lineChange line t high
    else (s.setTime t).setFilter line { s.filter line with line := high })

end Sys2Proof.Machine
end

