-- ==== Sys2Proof/Machine/Dispatch.lean ====
section
/-! DEFINITION. The meaning of every command, one arm per constructor of `Instr`. -/

namespace Sys2Proof.Machine

open Host

def exec (i : Instr) (s : State) : Host.Outcome State Fault Refusal :=
  match i with
  | .readTable t h args => Sys2Proof.Machine.execReadTable t h args s
  | .writeTable t h args => Sys2Proof.Machine.execWriteTable t h args s
  | .start t h args => Sys2Proof.Machine.execStart t h args s
  | .stop t h args => Sys2Proof.Machine.execStop t h args s
  | .announce t h args => Sys2Proof.Machine.execAnnounce t h args s
  | .requestCal t h args => Sys2Proof.Machine.execRequestCal t h args s
  | .setAddress t h args => Sys2Proof.Machine.execSetAddress t h args s
  | .status t h args => Sys2Proof.Machine.execStatus t h args s
  | .setScratch t h args => Sys2Proof.Machine.execSetScratch t h args s
  | .clearCapture t h args => Sys2Proof.Machine.execClearCapture t h args s
  | .restart t h args cut => Sys2Proof.Machine.execRestart t h args cut s
  | .restartTakesEffect t cut => Sys2Proof.Machine.execRestartTakesEffect t cut s
  | .coldReset t cut => Sys2Proof.Machine.execColdReset t cut s
  | .rstRise t => Sys2Proof.Machine.execRstRise t s
  | .shotReport t node payload => Sys2Proof.Machine.execShotReport t node payload s
  | .motionReport t node payload => Sys2Proof.Machine.execMotionReport t node payload s
  | .headLinkUnknownKind t node kind payload => Sys2Proof.Machine.execHeadLinkUnknownKind t node kind payload s
  | .headFrameCheck t received => Sys2Proof.Machine.execHeadFrameCheck t received s
  | .upstreamFrameArrival t f => Sys2Proof.Machine.execUpstreamFrameArrival t f s
  | .downstreamFrameArrival t f => Sys2Proof.Machine.execDownstreamFrameArrival t f s
  | .lineFrameCheck t port received => Sys2Proof.Machine.execLineFrameCheck t port received s
  | .upstreamTransmitterFree t => Sys2Proof.Machine.execUpstreamTransmitterFree t s
  | .downstreamTransmitterFree t => Sys2Proof.Machine.execDownstreamTransmitterFree t s
  | .headLinkTransmitDone t => Sys2Proof.Machine.execHeadLinkTransmitDone t s
  | .cycleEnd => Sys2Proof.Machine.execCycleEnd s
  | .firingPoint entry => Sys2Proof.Machine.execFiringPoint entry s
  | .replyWindowExpiry head => Sys2Proof.Machine.execReplyWindowExpiry head s
  | .calibrationTimerExpiry => Sys2Proof.Machine.execCalibrationTimerExpiry s
  | .gateLineChange t line high => Sys2Proof.Machine.execGateLineChange t line high s
  | .gateFilterExpiry line => Sys2Proof.Machine.execGateFilterExpiry line s
  | .lineFallsIdle t port => Sys2Proof.Machine.execLineFallsIdle t port s

end Sys2Proof.Machine
end

