-- ==== Sys2Proof/Machine/Step.lean ====
section
/-! DEFINITION. One step: the command at the front of the queue, or one microsecond of the clock when none waits. -/

namespace Sys2Proof.Machine

open Host

/-- The command at the front of the queue is taken with the queue's rest. On an empty queue nothing is commanded and one microsecond
of the clock passes (R211; DESIGN CHOICE, log 4). -/
def step (s : State) : Outcome State Fault Refusal :=
  match s.pending with
  | [] => .next (s.setTime (s.partTime + 1))
  | c :: rest => exec c (s.setPending rest)

/-- The state with the command that a word spells put at the front of the queue; unchanged where the word spells none (log 22). -/
def State.withFetchWord (s : State) (nbits w : Nat) : State :=
  match decodeTableWord nbits w with
  | some c => s.setPending (c :: s.pending)
  | none => s

end Sys2Proof.Machine
end

