-- ==== Sys2Proof/Safety.lean ====
section
/-! DEFINITION. The terms that claims use: when a command is taken and what its answer leaves, what a restart leaves, what START
accepts, and the laws that the manual states for every state of the part between two events. -/

namespace Sys2Proof.Machine

/-! ### Rounding -/

/-- `q` is the quotient of two figures rounded to nearest, ties away from zero (0.4.3). -/
def RoundsTo (a : Int) (b : Nat) (q : Int) : Prop :=
  2 * |a - q * b| ≤ b ∧ (2 * |a - q * b| = b → |a| < |q * b|)

/-! ### Taking a command -/

/-- A COMMAND frame with this header is consumed and taken by the Command Unit, neither forwarded nor dropped (R150, R162, R163). -/
def State.takes (s : State) (h : CommandHeader) : Bool :=
  s.rstHigh && !s.lcp.upDiscarding && h.dest == s.lcp.address && h.dest != 255 && s.lcp.slot.isNone && s.cmu.state == .idle

/-- A frame that arrives at the upstream port is received: the part acts and its receiver is not discarding (R202, R211). -/
def State.hearsUpstream (s : State) : Bool :=
  s.rstHigh && !s.lcp.upDiscarding

/-- As `State.hearsUpstream`, for the head link. -/
def State.hearsHeadLink (s : State) : Bool :=
  s.rstHigh && !s.hlp.discarding

/-- The answer to a command of this header (R156, R165): its destination is the command's source, its source the station address, its
kind 2 and its tag the command's. -/
def State.answerTo (s : State) (h : CommandHeader) (code : Byte) (data : Bytes) : LineFrame :=
  ⟨h.source, s.lcp.address, 2, h.tag, code :: data⟩

/-- The state at part time `t` with that answer formed: in the answer slot while the upstream transmitter is busy, and chosen at once
when it is idle (R156, R157); a RESTART answer that is chosen is in transmission (R178). -/
def State.withAnswer (s : State) (t : PartTime) (h : CommandHeader) (code : Byte) (data : Bytes) : State :=
  if s.lcp.upTx = none then
    { s with
      partTime := t
      lcp := { s.lcp with slot := none, upTx := some (s.answerTo h code data) }
      cmu := { s.cmu with state := match s.cmu.state with | .idle => .idle | .restartPending _ => .restartPending .sending } }
  else { s with partTime := t, lcp := { s.lcp with slot := some (s.answerTo h code data) } }

/-! ### Notices and captures -/

/-- The notice frame that an idle upstream transmitter takes: every pending kind, the level and the eight head states, from the station
address with the report tag, which advances; the notice set becomes empty (R145, R147). -/
def State.noticeTaken (s : State) : State :=
  { s with
    lcp := { s.lcp with upTx := some ⟨254, s.lcp.address, 5, s.rqu.tag,
      [noticeKinds s.rqu.notices, BitVec.ofNat 8 s.fsc.level.code]
        ++ allHeads.map fun h => BitVec.ofNat 8 (s.head h).state.code⟩ }
    rqu := { s.rqu with notices := Notices.empty, tag := s.rqu.tag + 1 } }

/-- The state once a notice has become ready: pending while the upstream transmitter is busy, taken at once when it is idle (R157; log 26). -/
def State.notified (s : State) : State :=
  if s.lcp.upTx = none then s.noticeTaken else s

/-- The state at part time `t` after a command that raises a notice and is then answered: an idle transmitter takes the notice, which
became ready first, and the answer waits in the slot (R157; log 26). -/
def State.withNoticeThenAnswer (s : State) (t : PartTime) (h : CommandHeader) (code : Byte) (data : Bytes) : State :=
  { s.notified with
    partTime := t
    lcp := { s.notified.lcp with slot := some (s.answerTo h code data) } }

/-- The state after an anomaly: an EMPTY record is filled and CAPTURE_HELD raised, a HELD one receives MORE (R173); an idle upstream
transmitter takes the notice at once (R157). -/
def State.captures (s : State) (kind : CaptureKind) (source : CaptureSource) (time : PartTime) (detail : Nat) : State :=
  match s.cmu.capture with
  | none =>
    ({ s with
      cmu := { s.cmu with capture := some ⟨kind, source, time, detail⟩ }
      rqu := { s.rqu with notices := { s.rqu.notices with captureHeld := true } } } : State).notified
  | some _ => { s with cmu := { s.cmu with more := true } }

/-- The upstream port after an event that gives it no claimant but notices: a busy transmitter goes on and nothing is chosen; an idle one
stays so, with the notices as they were, or has taken a notice frame with the level and head states that the event left (R147, R157;
log 26). -/
def State.NoticeAtMost (s s' : State) : Prop :=
  (s.lcp.upTx ≠ none → s'.lcp = s.lcp ∧ s'.rqu = { s.rqu with notices := s'.rqu.notices })
  ∧ (s.lcp.upTx = none →
      (s'.lcp = s.lcp ∧ s'.rqu = s.rqu)
      ∨ ∃ kinds : Byte,
          s'.lcp = { s.lcp with upTx := some ⟨254, s.lcp.address, 5, s.rqu.tag,
            [kinds, BitVec.ofNat 8 s'.fsc.level.code] ++ allHeads.map fun h => BitVec.ofNat 8 (s'.head h).state.code⟩ }
          ∧ s'.rqu = { s.rqu with notices := Notices.empty, tag := s.rqu.tag + 1 })

/-- A notice kind, by its place in the kinds byte (R209), has been raised by the event from `s` to `s'`: it is pending, or the notice
frame that an idle transmitter took at once carries it (R146, R147, R157; log 26). -/
def State.Told (s s' : State) (place : Nat) : Prop :=
  if s.lcp.upTx = none then ∃ f, s'.lcp.upTx = some f ∧ f.kind = 5 ∧ flagBit f.payload 0 place = true
  else (noticeKinds s'.rqu.notices).getLsbD place = true

/-- The state after a step that hands a gate edge on to RSQ, an idle upstream transmitter choosing at its end (R74, R97; log 26). -/
def State.handsOn (s : State) (g : GateEdge) : State :=
  whole s fun s => s.gateArrival g

/-! ### Entering a forward buffer -/

/-- LCP with a frame entered at the end of the downstream forward buffer, whose head a transmitter that waits takes at once (R153,
R159). -/
def Lcp.withDown (x : Lcp) (f : LineFrame) : Lcp :=
  match x.downTx, x.down with
  | some _, held => { x with down := held ++ [f] }
  | none, [] => { x with downTx := some f }
  | none, g :: rest => { x with downTx := some g, down := rest ++ [f] }

/-- The share counter when a forwarded frame is chosen (R158). -/
def State.shareForwarding (s : State) : Nat :=
  if s.rqu.entries = [] then s.lcp.share else s.lcp.share + 1

/-- LCP with a frame entered at the end of the upstream forward buffer, whose head an idle transmitter takes at once (R153, R157). -/
def State.withUp (s : State) (f : LineFrame) : Lcp :=
  match s.lcp.upTx, s.lcp.up with
  | some _, held => { s.lcp with up := held ++ [f] }
  | none, [] => { s.lcp with upTx := some f, share := s.shareForwarding }
  | none, g :: rest => { s.lcp with upTx := some g, up := rest ++ [f], share := s.shareForwarding }

/-- The number of argument bytes that a command code requires; WRITE_TABLE, code 2, requires at least its table and index (R206). -/
def argsRight (code : Nat) (args : Bytes) : Bool :=
  if code = 2 then decide (2 ≤ args.length)
  else decide (args.length = if code = 1 then 2 else if code = 5 ∨ code = 6 ∨ code = 7 then 1 else if code = 9 then 3 else 0)

/-! ### Restart -/

/-- What a restart at part time `t` leaves (R47, R66, R90, R104, R125, R148, R160, R161, R181, R198, R205): tables, address, forward
buffers, frames in transmission, shell-number counter, corrections, calibration states, pointer, capture record and scratch words are
kept. -/
def State.afterRestart (s : State) (t : PartTime) (cut : Cut) : State :=
  { s with
    partTime := t
    hlp := { queue := s.hlp.queue.take 1, discarding := s.hlp.discarding || cut.headLink }
    fsc := State.reset.fsc
    hcu :=
      { heads := Vector.ofFn fun h =>
          { s.head h with
            state := if s.enabled h then .active else .disabled
            miss := 0
            history := 15
            usable := s.pattern.getLsbD 15 }
        request := none
        pointer := s.hcu.pointer
        timer := if s.calSetup.interval = 0 then none else some ⟨t, s.calSetup.interval⟩ }
    mtr :=
      { history := []
        contexts := Vector.replicate 2 none
        older := 0
        shellCounter := s.mtr.shellCounter
        lastProduct := none
        announce := []
        gateA := ⟨s.mtr.gateA.line, s.mtr.gateA.line, none⟩
        gateB := ⟨s.mtr.gateB.line, s.mtr.gateB.line, none⟩ }
    rsq := ⟨[]⟩
    wmb := ⟨[]⟩
    rqu := { entries := [], reservations := 0, notices := Notices.empty, tag := 0 }
    lcp := { s.lcp with
      slot := none
      share := 0
      upDiscarding := s.lcp.upDiscarding || cut.upstream
      downDiscarding := s.lcp.downDiscarding || cut.downstream }
    cmu := { s.cmu with state := .idle } }

/-! ### START's validation (R23, R27) -/

/-- The least offset that check 2 of R27 allows entry `n`. -/
def State.spacedOffset (s : State) : Nat → Nat
  | 0 => 25
  | n + 1 => (s.entry n).offset + 25

/-- A SHOT entry passes checks 2 and 4 of R27 for a round length. -/
def State.ShotPasses (s : State) (roundLength n : Nat) : Prop :=
  ∃ o h p phase w steal, s.entry n = .shot o h p phase w steal ∧ s.spacedOffset n ≤ o ∧ s.enabled h = true
    ∧ roundLength % p = 0 ∧ phase < p ∧ (s.tst.profiles[w]).isSome = true

/-- An END stands before entry `n` (R23). -/
def State.afterEnd (s : State) (n : Nat) : Prop :=
  ∃ m, m < n ∧ (s.entry m).isFin = true

/-- Entry `n` passes the five checks of R27 for a round length: before the END a SHOT that passes, the first END in its range with a SHOT
before it, and after it a NONE. -/
def State.EntrySound (s : State) (roundLength n : Nat) : Prop :=
  (¬ s.afterEnd n ∧ s.ShotPasses roundLength n)
    ∨ (¬ s.afterEnd n ∧ 1 ≤ n ∧ ∃ o, s.entry n = .fin o ∧ s.spacedOffset n ≤ o ∧ 500 ≤ o ∧ o ≤ 60000)
    ∨ (s.afterEnd n ∧ s.entry n = .none)

/-- The header is loaded, and the list is SHOT entries that pass, then one END that passes, then NONE entries (R23, R27). -/
def State.ScheduleValid (s : State) : Prop :=
  ∃ roundLength last, s.tst.header = some roundLength ∧ 1 ≤ last ∧ last < 48
    ∧ (∃ o, s.entry last = .fin o ∧ s.spacedOffset last ≤ o ∧ 500 ≤ o ∧ o ≤ 60000)
    ∧ (∀ n, n < last → s.ShotPasses roundLength n)
    ∧ (∀ n, last < n → n < 48 → s.entry n = .none)

/-- The level that R45 gives outside HALTED. -/
def State.runningLevel (s : State) : Level :=
  if allHeads.any (fun h => s.enabled h && (s.head h).state == .lost) then .headLost
  else if s.fsc.lastShort then .short
  else .clean

/-! ### Bytes that a table keeps (R207) -/

/-- In the seven bytes of a list entry, the bits that no field of its kind names are zero (R194, R207). -/
def listEntryCanonical (p : Bytes) : Bool :=
  if field p 0 1 = 1 then decide (field p 6 1 % 128 < 4)
  else if field p 0 1 = 2 then decide (field p 3 4 = 0)
  else decide (field p 1 6 = 0)

/-- In the contents of an entry or part, the bits that no field names are zero (R207). -/
def contentsCanonical (table : Nat) (c : Bytes) : Bool :=
  if table = 0 then decide (field c 0 1 ≤ 1)
  else if table = 7 then decide (field c 2 1 ≤ 1)
  else if table = 5 then (List.range 8).all fun i => listEntryCanonical ((c.drop (7 * i)).take 7)
  else true

/-! ### What TST accepts (R184, R186 to R196) -/

/-- Entry `i` of a list part's contents, of seven bytes, is NONE, an END whose offset or a SHOT whose fields lie in their ranges (R194). -/
def ListEntryInRange (c : Bytes) (i : Nat) : Prop :=
  let part (place size : Nat) := field c (7 * i + place) size
  part 0 1 = 0 ∨ (part 0 1 = 2 ∧ part 1 2 ≤ 60000)
    ∨ (part 0 1 = 1 ∧ part 1 2 ≤ 60000 ∧ part 3 1 ≤ 7 ∧ part 4 1 ∈ [1, 2, 3, 4, 6, 8, 12, 16] ∧ part 5 1 ≤ 15)

/-- Every field of the contents of an entry or part, at its place (R207), lies in its range (R188, R190 to R192, R194 to R196). -/
def FieldsInRange (table : Nat) (c : Bytes) : Prop :=
  let inside (place size lo hi : Nat) := lo ≤ field c place size ∧ field c place size ≤ hi
  (table = 0 → inside 1 2 0 4095 ∧ inside 3 2 101 13000 ∧ inside 5 2 2000 60000 ∧ inside 7 2 0 2048 ∧ inside 9 2 0 4095)
    ∧ (table = 1 → inside 0 2 256 65535 ∧ inside 2 2 100 5000 ∧ inside 4 1 1 64 ∧ inside 5 2 100 50000 ∧ inside 7 2 0 500
      ∧ inside 9 2 0 10000)
    ∧ (table = 2 → inside 6 1 0 7 ∧ field c 7 1 ∈ [8, 16, 32] ∧ inside 8 2 50 1000 ∧ inside 10 2 1000 65535
      ∧ inside 12 2 1000 65535 ∧ inside 14 2 0 4095 ∧ inside 17 1 1 20 ∧ inside 18 2 1 2000 ∧ inside 20 2 0 1023)
    ∧ (table = 3 → ∀ i, i < 11 → inside (4 * i) 2 30000 65000 ∧ inside (4 * i + 2) 2 49152 65535)
    ∧ (table = 4 → inside 0 1 1 48)
    ∧ (table = 5 → ∀ i, i < 8 → ListEntryInRange c i)
    ∧ (table = 6 → inside 0 2 20 5000 ∧ inside 2 2 20 5000)
    ∧ (table = 7 → inside 0 2 0 3600)
    ∧ (table = 9 → inside 0 1 1 15)

/-- The contents keep the constraints between tables: an enabled head stands above the gate distance and at or below 8000 mm beyond it
(R188, R190), and a product's echo gate is not empty (R191). -/
def State.CrossTable (s : State) (table : Nat) (c : Bytes) : Prop :=
  (table = 0 → flagBit c 0 0 = true → ∀ x, s.tst.tracking = some x → x.gateDist < field c 3 2 ∧ field c 3 2 ≤ x.gateDist + 8000)
    ∧ (table = 1 → ∀ h, s.enabled h = true →
      field c 2 2 < (s.headEntry h).distance ∧ (s.headEntry h).distance ≤ field c 2 2 + 8000)
    ∧ (table = 2 → field c 10 2 < field c 12 2)

/-- A write is LOCKED while cycles run: of the head table, the schedule header, the list and the window profiles (R187). -/
def State.Locked (s : State) (table : Nat) : Prop :=
  (s.fsc.state = .running ∨ s.fsc.state = .stopping) ∧ (table = 0 ∨ table = 4 ∨ table = 5 ∨ table = 6)

/-- A write is refused IN_USE: of the head table and the tracking record while a shell is live (R189, R190), of a product entry and of any
part of a grade curve while a live shell is bound to it (R186). -/
def State.InUse (s : State) (table index : Nat) : Prop :=
  ((table = 0 ∨ table = 1) ∧ ∃ slot c, s.ctx slot = some c)
    ∨ (table = 2 ∧ ∃ slot c, s.ctx slot = some c ∧ c.flags.noProduct = false ∧ c.product.val = index)
    ∨ (table = 3 ∧ ∃ slot c curve, s.ctx slot = some c ∧ c.flags.noProduct = false ∧ c.flags.noGrade = false
      ∧ c.grade = some curve ∧ curve.val = index / 3)

/-! ### Laws between two events -/

/-- A forward buffer holds at most eight frames (R153). -/
def State.BuffersBounded (s : State) : Prop :=
  s.lcp.down.length ≤ 8 ∧ s.lcp.up.length ≤ 8

/-- The history holds at most eight samples, each later than the one before (R67). -/
def State.HistoryOrdered (s : State) : Prop :=
  s.mtr.history.length ≤ 8 ∧ s.mtr.history.IsChain fun a b => earlier a.tau b.tau = true

/-- The announce queue holds at most four indices (R79). -/
def State.AnnounceBounded (s : State) : Prop :=
  s.mtr.announce.length ≤ 4

/-- The head and shot time of a held shot. -/
def Item.shotKey : Item → Option (Fin 8 × PartTime)
  | .shot x => some (x.head, x.time)
  | .gate _ => none

/-- At most 60 shot items and 4 gate items are held, no two shots with the same head and time (R92, R93). -/
def State.ItemsBounded (s : State) : Prop :=
  s.rsq.shots ≤ 60 ∧ s.rsq.gates ≤ 4 ∧ (s.rsq.items.filterMap Item.shotKey).Nodup

/-- At most twelve segments are open, no two with the same shell number and index (R107). -/
def State.WindowBounded (s : State) : Prop :=
  s.wmb.window.length ≤ 12 ∧ (s.wmb.window.map fun r => (r.shell, r.index)).Nodup

/-- A reservation stands for each live context, entries and reservations never exceed 64, and segment reports never 62 (R141). -/
def State.RoomReserved (s : State) : Prop :=
  s.rqu.reservations = s.liveCount ∧ s.rqu.entries.length + s.rqu.reservations ≤ 64 ∧ s.rqu.segments ≤ 62

/-- The queues and buffers of the part are within their capacities. -/
def State.Capacities (s : State) : Prop :=
  s.BuffersBounded ∧ s.HistoryOrdered ∧ s.AnnounceBounded ∧ s.ItemsBounded ∧ s.WindowBounded ∧ s.RoomReserved

/-- The record of a head: DISABLED exactly while not enabled, the miss count 0..7, below 7 while ACTIVE and above 0 while LOST, and k
within the limit of the entry in force (R48 to R51, R57). -/
def State.HeadLawful (s : State) (h : Fin 8) : Prop :=
  ((s.head h).state = .disabled ↔ s.enabled h = false)
    ∧ (s.head h).miss ≤ 7
    ∧ ((s.head h).state = .active → (s.head h).miss < 7)
    ∧ ((s.head h).state = .lost → 0 < (s.head h).miss)
    ∧ 65536 - (s.headEntry h).limit ≤ (s.head h).k
    ∧ (s.head h).k ≤ 65536 + (s.headEntry h).limit

/-- Every head record is lawful, and the condition level held is the one that R45 gives. -/
def State.HeadsAndLevel (s : State) : Prop :=
  (∀ h, s.HeadLawful h)
    ∧ s.fsc.level = if s.fsc.state = .halted then .config else s.runningLevel

/-- A live context between two events: not CLOSING, its shell number 1..65535, and a tail and a length exactly while TAILING (R75, R83,
R122). -/
def ShellContext.Lawful (c : ShellContext) : Prop :=
  c.phase ≠ .closing ∧ 1 ≤ c.shell ∧ c.shell ≤ 65535
    ∧ (c.encTail.isSome = true ↔ c.phase = .tailing) ∧ (c.length.isSome = true ↔ c.phase = .tailing)

/-- Each live context is lawful, at most one is ENTERING or MEASURING, and the counter holds a shell number (R75 to R77). -/
def State.ContextsLawful (s : State) : Prop :=
  (∀ i c, s.ctx i = some c → c.Lawful)
    ∧ ¬ ((s.ctx 0).any ShellContext.beforeTail = true ∧ (s.ctx 1).any ShellContext.beforeTail = true)
    ∧ 1 ≤ s.mtr.shellCounter ∧ s.mtr.shellCounter ≤ 65535

/-- MORE is set only beside a HELD record (R176). -/
def State.MoreOnlyHeld (s : State) : Prop :=
  s.cmu.more = true → s.cmu.capture.isSome = true

/-- The station address is 0..253 (R154). -/
def State.AddressOwn (s : State) : Prop :=
  s.lcp.address.toNat ≤ 253

/-- While a transmitter of the line chain is idle, nothing waits for it (R157, R159). -/
def State.IdleMeansNothingWaits (s : State) : Prop :=
  (s.lcp.upTx = none → s.lcp.slot = none ∧ s.rqu.notices = Notices.empty ∧ s.lcp.up = [] ∧ s.rqu.entries = [])
    ∧ (s.lcp.downTx = none → s.lcp.down = [])

/-- The contexts, the capture record, the station address and the transmitters keep their laws. -/
def State.Ownership (s : State) : Prop :=
  s.ContextsLawful ∧ s.MoreOnlyHeld ∧ s.AddressOwn ∧ s.IdleMeansNothingWaits

/-- The fire record is OUTSTANDING with this round. -/
def FireRecord.inRound (r : FireRecord) (round : Nat) : Bool :=
  match r with
  | .outstanding _ _ _ n => n == round
  | .idle => false
  | .expired _ _ => false

/-- The number of fires of a round that are outstanding. -/
def State.outstandingIn (s : State) (round : Nat) : Nat :=
  allHeads.countP fun h => (s.fire h).inRound round

/-- Every tally accounts for the fires of its round that are outstanding, and an ended round's tally is held only while some are; the
round in progress, and it alone, has not ended; no outstanding fire lacks its tally (R43, R44). -/
def State.TalliesAccount (s : State) : Prop :=
  (s.fsc.tallies.map Tally.round).Nodup
    ∧ (∀ x ∈ s.fsc.tallies, x.round ≤ s.fsc.round)
    ∧ (∀ x ∈ s.fsc.tallies, x.issued = x.resolved + s.outstandingIn x.round)
    ∧ (∀ x ∈ s.fsc.tallies, x.ended = true → 0 < s.outstandingIn x.round)
    ∧ (∀ x ∈ s.fsc.tallies, x.ended = false ↔ s.cyclesRun = true ∧ x.round = s.fsc.round)
    ∧ (s.cyclesRun = true → ∃ x ∈ s.fsc.tallies, x.round = s.fsc.round)
    ∧ (∀ h round, (s.fire h).inRound round = true → ∃ x ∈ s.fsc.tallies, x.round = round)

end Sys2Proof.Machine
end

