-- ==== Sys2Proof/Certificates/Slice0/Obligations.lean ====
section
/-! DEFINITION. The statements for the provers. Each names the rules of spec/ that it formalises; a clause that rests on a choice of the
model names its log entry. -/

open Sys2Proof Sys2Proof.Machine

/-! ### The machine -/

/-- A step takes the command at the front of the queue and runs it with the queue's rest; on an empty queue one microsecond passes
(R211; the tick on an empty queue is the model's choice, log 4). -/
def Obligations.StepTakesFrontOrTicks : Prop :=
  (∀ (s : State) (c : Instr) (rest : List Instr), s.pending = c :: rest → step s = exec c (s.setPending rest))
  ∧ (∀ s : State, s.pending = [] → step s = .next { s with partTime := s.partTime + 1 })

/-- No command changes the queue of waiting commands, which is the model's own, whatever events the manual lets follow one another (R162). -/
def Obligations.CommandsLeaveTheQueue : Prop :=
  ∀ (c : Instr) (s s' : State), exec c s = .next s' → s'.pending = s.pending

/-- While RST is low the part stays as it is (R211): every command but the two that concern RST and a gate line's change of level
moves the part time alone. That R211 holds every such command so is the model's reading (DEDUCED, log 7), and that LINE_FALLS_IDLE
has no effect then is its choice (DESIGN CHOICE, log 8). -/
def Obligations.HeldWhileRstLow : Prop :=
  ∀ (c : Instr) (s : State), s.rstHigh = false →
    match c with
    | .coldReset _ _ => True
    | .rstRise _ => True
    | .gateLineChange _ _ _ => True
    | _ => ∃ t, exec c s = .next { s with partTime := t }

/-! ### Resets -/

/-- The cold reset values of every block, the head link's transmit queue and the two transmitters of the line chain among them (R47, R66,
R90, R104, R125, R148, R160, R161, R181, R198, R205). -/
def Obligations.ResetValues : Prop :=
  let s := State.reset
  (s.fsc.state = .stopped ∧ s.fsc.cycleCount = 0 ∧ (∀ h, s.fire h = .idle) ∧ (∀ h : Fin 8, s.fsc.seqs[h] = 0)
    ∧ s.fsc.tallies = [] ∧ s.fsc.lastShort = false ∧ s.fsc.level = .clean)
  ∧ (∀ h, s.head h = ⟨.disabled, 0, 15, true, 65536, .never⟩)
  ∧ (s.hcu.request = none ∧ s.hcu.pointer = 0 ∧ s.hcu.timer = none)
  ∧ (s.mtr.history = [] ∧ (∀ i, s.ctx i = none) ∧ s.mtr.shellCounter = 1 ∧ s.mtr.lastProduct = none ∧ s.mtr.announce = []
    ∧ s.mtr.gateA.pending = none ∧ s.mtr.gateB.pending = none)
  ∧ s.rsq.items = [] ∧ s.wmb.window = []
  ∧ (s.rqu.entries = [] ∧ s.rqu.reservations = 0 ∧ s.rqu.notices = Notices.empty ∧ s.rqu.tag = 0)
  ∧ (s.lcp.address = 0 ∧ s.lcp.down = [] ∧ s.lcp.up = [] ∧ s.lcp.slot = none ∧ s.lcp.share = 0)
  ∧ (s.hlp.queue = [] ∧ s.lcp.upTx = none ∧ s.lcp.downTx = none)
  ∧ (s.cmu.state = .idle ∧ s.cmu.capture = none ∧ s.cmu.more = false ∧ s.cmu.scratch0 = 0 ∧ s.cmu.scratch1 = 0)
  ∧ (∀ table index, s.tst.loaded table index = false)

/-- COLD_RESET takes effect at once, whatever the part's state: every block takes its cold reset value, both transmitters stop, the
gate filters settle at their lines, a frame being received is discarded with what follows it, and the part waits for RST to rise
(R161, R182, R205, R211). That the command names the part time (log 5) and the receivers holding a part of a frame (log 8) is the
model's choice. RST_RISE of a part so held: it begins to act, and each gate filter settles at its line's level (R90, R211). -/
def Obligations.ColdResetAndRise : Prop :=
  (∀ (t : PartTime) (cut : Cut) (s : State),
    exec (.coldReset t cut) s = .next
      { partTime := t
        rstHigh := false
        hlp := ⟨[], s.hlp.discarding || cut.headLink⟩
        fsc := State.reset.fsc
        hcu := State.reset.hcu
        mtr := { State.reset.mtr with
          gateA := ⟨s.mtr.gateA.line, s.mtr.gateA.line, none⟩
          gateB := ⟨s.mtr.gateB.line, s.mtr.gateB.line, none⟩ }
        rsq := State.reset.rsq
        wmb := State.reset.wmb
        rqu := State.reset.rqu
        lcp := { State.reset.lcp with
          upDiscarding := s.lcp.upDiscarding || cut.upstream
          downDiscarding := s.lcp.downDiscarding || cut.downstream }
        cmu := State.reset.cmu
        tst := State.reset.tst
        freeCount := s.freeCount
        ready := s.ready
        pending := s.pending })
  ∧ (∀ (t : PartTime) (s : State), s.rstHigh = false →
    exec (.rstRise t) s = .next
      { s with
        partTime := t
        rstHigh := true
        mtr := { s.mtr with
          gateA := ⟨s.mtr.gateA.line, s.mtr.gateA.line, none⟩
          gateB := ⟨s.mtr.gateB.line, s.mtr.gateB.line, none⟩ } })

/-- RESTART_TAKES_EFFECT when the RESTART answer is in transmission, whose last byte frees the transmitter (R178): the restart values of
every block, as one event (R181), and the transmitter goes on with the head of the upstream forward buffer, which the restart keeps
(R160, R161). When the answer has been sent and another event was taken first (log 13): the restart values, the frame in transmission
going on. Which receivers hold a part of a frame is the model's operand (log 8). -/
def Obligations.RestartTakesEffect : Prop :=
  ∀ (t : PartTime) (cut : Cut) (s : State), s.rstHigh = true →
    (s.cmu.state = .restartPending .sending →
      let s1 := ({ s with lcp := { s.lcp with upTx := none } } : State).afterRestart t cut
      (s.lcp.up = [] → exec (.restartTakesEffect t cut) s = .next s1)
      ∧ (∀ f rest, s.lcp.up = f :: rest →
          exec (.restartTakesEffect t cut) s = .next { s1 with lcp := { s1.lcp with up := rest, upTx := some f } }))
    ∧ (s.cmu.state = .restartPending .sent →
      exec (.restartTakesEffect t cut) s = .next (s.afterRestart t cut))

/-! ### Commands and their answers -/

/-- READ_TABLE: BAD_TABLE above 9, BAD_INDEX above the table's range, otherwise DONE with the flags and contents held; nothing but the
answer slot changes (R183, R197, R206). -/
def Obligations.ReadTableAnswers : Prop :=
  ∀ (t : PartTime) (h : CommandHeader) (s : State) (table index : Byte), s.takes h = true →
    (9 < table.toNat → exec (.readTable t h [table, index]) s = .next (s.withAnswer t h 2 []))
    ∧ (table.toNat ≤ 9 → maxIndex table.toNat < index.toNat →
        exec (.readTable t h [table, index]) s = .next (s.withAnswer t h 3 []))
    ∧ (table.toNat ≤ 9 → index.toNat ≤ maxIndex table.toNat →
        exec (.readTable t h [table, index]) s = .next (s.withAnswer t h 0
          ([table, index, s.tst.readFlags table.toNat index.toNat] ++ s.tst.contents table.toNat index.toNat)))

/-- WRITE_TABLE of a product entry that is bound to no live shell, every field within its range and the echo gate not empty: the whole
entry is replaced and loaded, and nothing else changes but the answer slot (R185, R186, R191). Of a part of a grade curve that is bound to
no live shell, its points within their ranges: the part is loaded, and a write of part 0 clears parts 1 and 2 (R186, R192, R193). Of the
calibration setup with an interval up to 3600: it is stored, a stopped timer is armed at the part time of the write for the interval
written, or stays stopped at 0, and an armed timer is left as it is (R58, R196). Of the other six tables, each field within its range: the
tracking record, no shell live and every enabled head clear of the gate distance written (R190); the schedule header, a list part and a
window profile, no cycle running (R187, R194, R195); the health pattern and the output share at any time (R196): the whole entry is stored
and nothing else changes, no head's health and no arbiter state. -/
def Obligations.WriteProductStores : Prop :=
  ∀ (t : PartTime) (h : CommandHeader) (s : State), s.takes h = true →
    (∀ (i : Fin 16) (p : Product), p.inRange = true → p.wallLo < p.wallHi → p.nominalWall ≤ 65535 → p.lowerTol ≤ 65535 →
      p.upperTol ≤ 65535 → (∀ slot c, s.ctx slot = some c → c.flags.noProduct = true ∨ c.product ≠ i) →
      exec (.writeTable t h ([2, BitVec.ofNat 8 i.val] ++ productBytes p)) s = .next
        (({ s with tst := { s.tst with products := s.tst.products.set i (some p) } } : State).withAnswer t h 0 []))
    ∧ (∀ (i : Fin 24) (g : GradePart), (∀ x ∈ g.toList, 30000 ≤ x.velocity ∧ x.velocity ≤ 65000 ∧ 49152 ≤ x.shrink ∧ x.shrink ≤ 65535) →
      (∀ slot c, s.ctx slot = some c →
        c.flags.noProduct = true ∨ c.flags.noGrade = true ∨ ∀ curve, c.grade = some curve → curve.val ≠ i.val / 3) →
      exec (.writeTable t h ([3, BitVec.ofNat 8 i.val] ++ gradePartBytes g)) s = .next
        (({ s with tst := { s.tst with
            grades := Vector.ofFn fun j : Fin 24 =>
              if j = i then some g else if i.val % 3 = 0 ∧ j.val / 3 = i.val / 3 then none else s.tst.grades[j] } } : State).withAnswer
          t h 0 []))
    ∧ (∀ x : CalSetup, x.interval ≤ 3600 →
      exec (.writeTable t h ([7, 0] ++ calSetupBytes x)) s = .next
        (({ s with
          tst := { s.tst with calSetup := some x }
          hcu := { s.hcu with timer := s.hcu.timer.or (if x.interval = 0 then none else some ⟨t, x.interval⟩) } } : State).withAnswer
          t h 0 []))
    ∧ (let stored (tst : Tst) (table index : Byte) (c : Bytes) : Prop :=
        exec (.writeTable t h ([table, index] ++ c)) s = .next (({ s with tst := tst } : State).withAnswer t h 0 [])
      let idle := s.fsc.state = .stopped ∨ s.fsc.state = .halted
      (∀ x : Tracking, s.ctx 0 = none → s.ctx 1 = none → x.inRange = true →
        (∀ i, s.enabled i = true → x.gateDist < (s.headEntry i).distance ∧ (s.headEntry i).distance ≤ x.gateDist + 8000) →
        stored { s.tst with tracking := some x } 1 0 (trackingBytes x))
      ∧ (∀ length : Byte, idle → 1 ≤ length.toNat → length.toNat ≤ 48 →
        stored { s.tst with header := some length.toNat } 4 0 [length])
      ∧ (∀ (i : Fin 6) (x : ListPart), idle → (∀ e ∈ x.toList, e.offset ≤ 60000
          ∧ ∀ o head period phase w steal, e = .shot o head period phase w steal → period ∈ [1, 2, 3, 4, 6, 8, 12, 16] ∧ phase ≤ 15) →
        stored { s.tst with lists := s.tst.lists.set i (some x) } 5 (BitVec.ofNat 8 i.val) (listPartBytes x))
      ∧ (∀ (i : Fin 4) (x : Profile), idle → 20 ≤ x.measure → x.measure ≤ 5000 → 20 ≤ x.calibrate → x.calibrate ≤ 5000 →
        stored { s.tst with profiles := s.tst.profiles.set i (some x) } 6 (BitVec.ofNat 8 i.val) (profileBytes x))
      ∧ (∀ x : BitVec 16, stored { s.tst with pattern := some x } 8 0 (be16 x.toNat))
      ∧ (∀ share : Byte, 1 ≤ share.toNat → share.toNat ≤ 15 → stored { s.tst with share := some share.toNat } 9 0 [share]))

/-- WRITE_TABLE of a head entry, no schedule running and no shell live, every field within its range and P_h clear of the gate distance if
the entry is enabled: the entry is stored, and no other head changes. A DISABLED head that it enables becomes ACTIVE with miss count 0,
history 15 and the pattern's health; an ACTIVE or LOST head that it disables becomes DISABLED, its counts kept, and a request that names it
is cleared, the pointer moving to the first head after it that is then enabled (R49, R62); otherwise state, counts, request and pointer
stay. In every row k is clamped into the new limit and the calibration state kept (R49, R57). The level is recomputed, and LEVEL_CHANGE
raised when it differs, before the answer is formed (R45, R157, R188, R189); that an idle line takes the notice once the step is whole is
log 26's choice. -/
def Obligations.WriteHeadEnables : Prop :=
  ∀ (t : PartTime) (h : CommandHeader) (s : State) (i : Fin 8) (e : HeadEntry), s.takes h = true →
    (s.fsc.state = .stopped ∨ s.fsc.state = .halted) → s.ctx 0 = none → s.ctx 1 = none → e.inRange = true →
    (e.enabled = true → ∀ x, s.tst.tracking = some x → x.gateDist < e.distance ∧ e.distance ≤ x.gateDist + 8000) →
    let k := max (65536 - e.limit) (min (65536 + e.limit) (s.head i).k)
    let disables := (s.head i).state ≠ .disabled ∧ e.enabled = false
    ∃ s', exec (.writeTable t h ([0, BitVec.ofNat 8 i.val] ++ headEntryBytes e)) s = .next s'
      ∧ s'.tst = { s.tst with heads := s.tst.heads.set i (some e) }
      ∧ ((s.head i).state = .disabled → e.enabled = true →
        s'.head i = ⟨.active, 0, 15, s.pattern.getLsbD 15, k, (s.head i).cal⟩)
      ∧ (disables → s'.head i = { s.head i with state := .disabled, k := k })
      ∧ (((s.head i).state = .disabled ↔ e.enabled = false) → s'.head i = { s.head i with k := k })
      ∧ (∀ j, j ≠ i → s'.head j = s.head j)
      ∧ (disables → s.hcu.request = some i → s'.hcu.request = none
        ∧ (∀ n : Fin 8, s'.enabled (i + 1 + n) = true → (∀ j : Fin 8, j < n → s'.enabled (i + 1 + j) = false) →
            s'.hcu.pointer = i + 1 + n)
        ∧ ((∀ j, s'.enabled j = false) → s'.hcu.pointer = i + 1))
      ∧ (¬ (disables ∧ s.hcu.request = some i) → s'.hcu.request = s.hcu.request ∧ s'.hcu.pointer = s.hcu.pointer)
      ∧ s'.hcu.timer = s.hcu.timer
      ∧ s'.fsc = { s.fsc with level := if s.fsc.state = .halted then .config else s'.runningLevel }
      ∧ s' = (if s'.fsc.level = s.fsc.level then ({ s with tst := s'.tst, hcu := s'.hcu } : State).withAnswer t h 0 []
          else ({ s with
            tst := s'.tst
            hcu := s'.hcu
            fsc := s'.fsc
            rqu := { s.rqu with notices := { s.rqu.notices with levelChange := true } } } : State).withNoticeThenAnswer t h 0 [])

/-- WRITE_TABLE refused: whatever check fails, the answer carries its code and nothing else changes (R185). The first check that fails
gives the code (R184): BAD_TABLE above 9, BAD_INDEX above the table's range, BAD_VALUE for contents of another length; LOCKED in RUNNING
and STOPPING for the head table, header, list and profiles (R187); IN_USE while a shell is live for the head table and the tracking record
(R189, R190), and for a product entry or a part of a grade curve that is bound to a live shell (R186); BAD_VALUE for a field outside its
range or a constraint between tables that is broken (R188, R190 to R192, R194 to R196). -/
def Obligations.WriteRefused : Prop :=
  ∀ (t : PartTime) (h : CommandHeader) (s : State) (table index : Byte) (c : Bytes), s.takes h = true →
    let refused (code : Byte) : Prop := exec (.writeTable t h (table :: index :: c)) s = .next (s.withAnswer t h code [])
    (∀ st, s.writeRefusal table.toNat index.toNat c = some st → refused st.code)
    ∧ (9 < table.toNat → refused 2)
    ∧ (table.toNat ≤ 9 → maxIndex table.toNat < index.toNat → refused 3)
    ∧ (table.toNat ≤ 9 → index.toNat ≤ maxIndex table.toNat →
      (c.length ≠ contentsLength table.toNat → refused 4)
      ∧ (c.length = contentsLength table.toNat →
        (s.Locked table.toNat → refused 5)
        ∧ (¬ s.Locked table.toNat → s.InUse table.toNat index.toNat → refused 6)
        ∧ (¬ s.Locked table.toNat → ¬ s.InUse table.toNat index.toNat →
          ¬ (FieldsInRange table.toNat c ∧ s.CrossTable table.toNat c) → refused 4)))

/-- What an accepted write stores is read back byte for byte, with its loaded flag, when the bits that no field names are zero: no bit
of the contents of any of the ten tables is lost between R184's write and R197's read. -/
def Obligations.StoredContentsReadBack : Prop :=
  ∀ (x : Tst) (table index : Nat) (c : Bytes), table ≤ 9 → index ≤ maxIndex table → c.length = contentsLength table →
    contentsInRange table c = true → contentsCanonical table c = true →
    (x.store table index c).contents table index = c ∧ (x.store table index c).loaded table index = true

/-- START in STOPPED or HALTED with a valid schedule: RUNNING, a first cycle of count 0 at the part time of START with its cycle mark, a
new round with a tally of zeros, outstanding fires undisturbed, and the level that R45 then gives, raising LEVEL_CHANGE when it differs,
before the answer is formed (R26, R31, R43, R45, R157). That an idle line then takes the notice once the step is whole, and the answer
waits, is log 26's choice. -/
def Obligations.StartRunsValidSchedule : Prop :=
  ∀ (t : PartTime) (h : CommandHeader) (s : State), s.takes h = true →
    (s.fsc.state = .stopped ∨ s.fsc.state = .halted) → s.ScheduleValid →
    let started : State :=
      { s with
        hlp := { s.hlp with queue := s.hlp.queue ++ [⟨0, 1, 0 :: be32 t.toNat⟩] }
        fsc := { s.fsc with
          state := .running
          cycleCount := 0
          cycleStart := t
          place := 0
          round := s.fsc.round + 1
          tallies := s.fsc.tallies ++ [⟨s.fsc.round + 1, 0, 0, 0, 0, false⟩]
          level := s.runningLevel } }
    (s.runningLevel = s.fsc.level → exec (.start t h []) s = .next (started.withAnswer t h 0 []))
    ∧ (s.runningLevel ≠ s.fsc.level → exec (.start t h []) s = .next
        (({ started with rqu := { s.rqu with notices := { s.rqu.notices with levelChange := true } } } : State).withNoticeThenAnswer
          t h 0 []))

/-- START in STOPPED or HALTED with a schedule that validation refuses: CONFIG_ERROR with the offending index, HALTED, level 3, the
notice SCHEDULE_HALTED, LEVEL_CHANGE when the level was lower, both before the answer is formed; cycle count, shot sequences and fire
records stay, and no cycle mark is sent (R28, R157). That an idle line takes both kinds in one notice frame with level 3, once the step is
whole, is log 26's choice (DEDUCED). -/
def Obligations.StartRefusesInvalidSchedule : Prop :=
  ∀ (t : PartTime) (h : CommandHeader) (s : State) (n : Nat), s.takes h = true →
    (s.fsc.state = .stopped ∨ s.fsc.state = .halted) → s.offending = some n →
    exec (.start t h []) s = .next
      (({ s with
        fsc := { s.fsc with state := .halted, level := .config }
        rqu := { s.rqu with notices :=
          { s.rqu.notices with
            scheduleHalted := true
            levelChange := s.rqu.notices.levelChange || decide (s.fsc.level ≠ .config) } } } : State).withNoticeThenAnswer t h 9
        [BitVec.ofNat 8 n])

/-- Validation passes exactly the schedules of R27, and refuses an unloaded header, and nothing else, with index 255. With a header
loaded, the offending index is the first entry, of indices 0 to 47, that fails one of the five checks, and 48 for a list of 48 SHOT entries
that all pass, and for nothing else (R27). -/
def Obligations.ValidationIsR27 : Prop :=
  ∀ s : State, (s.offending = none ↔ s.ScheduleValid) ∧ (s.offending = some 255 ↔ s.tst.header = none)
    ∧ (∀ roundLength, s.tst.header = some roundLength →
      (∀ n, n < 48 → (s.offending = some n ↔ ¬ s.EntrySound roundLength n ∧ ∀ m, m < n → s.EntrySound roundLength m))
      ∧ (s.offending = some 48 ↔ ∀ n, n < 48 → s.ShotPasses roundLength n))

/-- STOP in each schedule state, and START in RUNNING and STOPPING: DONE, and at most the schedule state changes (R26, R29). -/
def Obligations.StopAndResume : Prop :=
  ∀ (t : PartTime) (h : CommandHeader) (s : State), s.takes h = true →
    (s.fsc.state = .running →
      exec (.stop t h []) s = .next (({ s with fsc := { s.fsc with state := .stopping } } : State).withAnswer t h 0 [])
      ∧ exec (.start t h []) s = .next (s.withAnswer t h 0 []))
    ∧ (s.fsc.state = .stopping →
      exec (.stop t h []) s = .next (s.withAnswer t h 0 [])
      ∧ exec (.start t h []) s = .next (({ s with fsc := { s.fsc with state := .running } } : State).withAnswer t h 0 []))
    ∧ ((s.fsc.state = .stopped ∨ s.fsc.state = .halted) →
      exec (.stop t h []) s = .next (s.withAnswer t h 0 []))

/-- ANNOUNCE: an index above 15 is BAD_INDEX, a queue of four is FULL, otherwise the index is appended as the newest (R79). -/
def Obligations.AnnounceAppends : Prop :=
  ∀ (t : PartTime) (h : CommandHeader) (s : State) (p : Byte), s.takes h = true →
    (15 < p.toNat → exec (.announce t h [p]) s = .next (s.withAnswer t h 3 []))
    ∧ (p.toNat ≤ 15 → 4 ≤ s.mtr.announce.length → exec (.announce t h [p]) s = .next (s.withAnswer t h 7 []))
    ∧ (∀ i : Fin 16, p.toNat = i.val → s.mtr.announce.length < 4 →
        exec (.announce t h [p]) s = .next
          (({ s with mtr := { s.mtr with announce := s.mtr.announce ++ [i] } } : State).withAnswer t h 0 []))

/-- REQUEST_CAL: a head above 7 is BAD_INDEX, a head not enabled BAD_VALUE, a pending request PENDING; otherwise the request names the
head and the pointer stays (R60). -/
def Obligations.RequestCalSets : Prop :=
  ∀ (t : PartTime) (h : CommandHeader) (s : State) (b : Byte), s.takes h = true →
    (7 < b.toNat → exec (.requestCal t h [b]) s = .next (s.withAnswer t h 3 []))
    ∧ (∀ i : Fin 8, b.toNat = i.val →
        (s.enabled i = false → exec (.requestCal t h [b]) s = .next (s.withAnswer t h 4 []))
        ∧ (s.enabled i = true → s.hcu.request ≠ none → exec (.requestCal t h [b]) s = .next (s.withAnswer t h 8 []))
        ∧ (s.enabled i = true → s.hcu.request = none →
            exec (.requestCal t h [b]) s = .next
              (({ s with hcu := { s.hcu with request := some i } } : State).withAnswer t h 0 [])))

/-- SET_ADDRESS: 0..253 becomes the station address, and the answer comes from it; 254 and 255 are BAD_VALUE from the address held
(R155). -/
def Obligations.SetAddressMoves : Prop :=
  ∀ (t : PartTime) (h : CommandHeader) (s : State) (a : Byte), s.takes h = true →
    (a.toNat ≤ 253 →
      exec (.setAddress t h [a]) s = .next (({ s with lcp := { s.lcp with address := a } } : State).withAnswer t h 0 []))
    ∧ (253 < a.toNat → exec (.setAddress t h [a]) s = .next (s.withAnswer t h 4 []))

/-- STATUS is answered DONE with a record of 114 bytes and changes nothing but the answer slot. Its groups stand at their places: schedule
at 0, the eight heads at 4, request and pointer at 76, the two contexts at 78, the fills at 86, the capture record at 96, the scratch
words at 105, the address at 109 and the part time of the command at 110 (R169, R170, R208). -/
def Obligations.StatusAnswers : Prop :=
  ∀ (t : PartTime) (h : CommandHeader) (s : State), s.takes h = true →
    ∃ record : Bytes, exec (.status t h []) s = .next (s.withAnswer t h 0 record) ∧ record.length = 114
      ∧ record.take 4 = [byteOf s.fsc.state.code, byteOf s.fsc.level.code, byteOf s.fsc.cycleCount, if s.fsc.lastShort = true then 1 else 0]
      ∧ (∀ i : Fin 8, (record.drop (4 + 9 * i.val)).take 9 =
          [byteOf (s.head i).state.code, byteOf (s.head i).miss, byteOf (s.head i).history.toNat,
            if (s.head i).usable = true then 0 else 1] ++ be32 (s.head i).k ++ [byteOf (s.head i).cal.code])
      ∧ (record.drop 76).take 2 = [match s.hcu.request with | some i => byteOf i.val | none => 255, byteOf s.hcu.pointer.val]
      ∧ (record.drop 78).take 8 = contextBlock (s.ctx 0) ++ contextBlock (s.ctx 1)
      ∧ (record.drop 86).take 10 =
          [byteOf s.mtr.history.length, byteOf s.rsq.shots, byteOf s.rsq.gates, byteOf s.wmb.window.length, byteOf s.mtr.announce.length,
            byteOf s.rqu.segments, byteOf s.rqu.shells, byteOf s.rqu.reservations, byteOf s.lcp.down.length, byteOf s.lcp.up.length]
      ∧ (record.drop 96).take 9 = s.cmu.captureBlock
      ∧ (record.drop 105).take 5 = be16 s.cmu.scratch0.toNat ++ be16 s.cmu.scratch1.toNat ++ [s.lcp.address]
      ∧ record.drop 110 = be32 t.toNat

/-- SET_SCRATCH writes the word named and answers the value held before; an index above 1 is BAD_INDEX (R171). -/
def Obligations.SetScratchSwaps : Prop :=
  ∀ (t : PartTime) (h : CommandHeader) (s : State) (i hi lo : Byte), s.takes h = true →
    (i = 0 → exec (.setScratch t h [i, hi, lo]) s = .next
      (({ s with cmu := { s.cmu with scratch0 := BitVec.ofNat 16 (256 * hi.toNat + lo.toNat) } } : State).withAnswer t h 0
        (be16 s.cmu.scratch0.toNat)))
    ∧ (i = 1 → exec (.setScratch t h [i, hi, lo]) s = .next
      (({ s with cmu := { s.cmu with scratch1 := BitVec.ofNat 16 (256 * hi.toNat + lo.toNat) } } : State).withAnswer t h 0
        (be16 s.cmu.scratch1.toNat)))
    ∧ (1 < i.toNat → exec (.setScratch t h [i, hi, lo]) s = .next (s.withAnswer t h 3 []))

/-- CLEAR_CAPTURE answers the record as it stood and empties it with MORE (R176); the next anomaly fills it afresh and raises
CAPTURE_HELD, which claims the upstream transmitter (R157; the field that remembers it is the model's own, log 26), and any later one
sets MORE alone (R173). -/
def Obligations.ClearCaptureEmpties : Prop :=
  (∀ (t : PartTime) (h : CommandHeader) (s : State), s.takes h = true →
    exec (.clearCapture t h []) s = .next
      (({ s with cmu := { s.cmu with capture := none, more := false } } : State).withAnswer t h 0 s.cmu.captureBlock))
  ∧ (∀ (s : State) (kind : CaptureKind) (source : CaptureSource) (time : PartTime) (detail : Nat),
    (s.cmu.capture = none → s.report kind source time detail =
      { s with
        cmu := { s.cmu with capture := some ⟨kind, source, time, detail⟩ }
        rqu := { s.rqu with notices := { s.rqu.notices with captureHeld := true } }
        ready := s.ready.or (some .notices) })
    ∧ (s.cmu.capture ≠ none → s.report kind source time detail = { s with cmu := { s.cmu with more := true } }))

/-- An addressed RESTART is answered DONE and leaves the part waiting for the answer to be sent (R178). A broadcast RESTART that is not
dropped has its copy entered downstream while there is room, which a waiting transmitter takes (R159), and takes effect at once, with no
answer (R150, R180). -/
def Obligations.RestartAnsweredOrAtOnce : Prop :=
  ∀ (t : PartTime) (h : CommandHeader) (s : State) (cut : Cut),
    (s.takes h = true → exec (.restart t h [] cut) s = .next
      (({ s with cmu := { s.cmu with state := .restartPending .waiting } } : State).withAnswer t h 0 []))
    ∧ (s.hearsUpstream = true → h.dest = 255 → s.lcp.slot = none → s.cmu.state = .idle → s.lcp.down.length < 8 →
      exec (.restart t h [] cut) s = .next
        (({ s with lcp := s.lcp.withDown ⟨255, h.source, 1, h.tag, [11]⟩ } : State).afterRestart t cut))

/-- A command addressed to the station while the answer slot is full or a restart is pending is dropped, whatever it is: it fills the
capture record with COMMAND_OVERRUN, the code of an empty payload being 0, and does nothing else; a broadcast command so met has its copy
entered downstream first (R163). A broadcast command that is not dropped has its copy entered downstream, or dropped with
FORWARD_OVERFLOW when eight frames are held, and is then executed, the next state being the command's own effect with no answer (R150,
R151, R153, R166). That an idle line chooses once that effect is whole, among the notices it raised, and the field ready in which the
model remembers the first of them, are log 26's choice (DEDUCED): a broadcast START that fails leaves SCHEDULE_HALTED and LEVEL_CHANGE in
one frame. That a broadcast RESTART in a frame of this row cuts no receiver is log 24's choice (DESIGN CHOICE, unsafe: R161 has a receiver
that holds a part of a frame discard it); the row RESTART carries what it cuts. -/
def Obligations.CommandOverrunDrops : Prop :=
  ∀ (t : PartTime) (s : State) (f : LineFrame), s.hearsUpstream = true → f.kind = 1 →
    let detail := 256 * (match f.payload with | [] => 0 | code :: _ => code.toNat) + f.tag.toNat
    let begun : State := { s with partTime := t, ready := none }
    let copied : State := if s.lcp.down.length < 8 then { begun with lcp := s.lcp.withDown f }
      else begun.report .forwardOverflow .upstream t (256 * 255 + 1)
    (f.dest = s.lcp.address → f.dest ≠ 255 → (s.lcp.slot ≠ none ∨ s.cmu.state ≠ .idle) →
      exec (.upstreamFrameArrival t f) s = .next (({ s with partTime := t } : State).captures .commandOverrun .upstream t detail))
    ∧ (f.dest = 255 → (s.lcp.slot ≠ none ∨ s.cmu.state ≠ .idle) → s.lcp.down.length < 8 →
      exec (.upstreamFrameArrival t f) s = .next
        (({ s with partTime := t, lcp := s.lcp.withDown f } : State).captures .commandOverrun .upstream t detail))
    ∧ (f.dest = 255 → (s.lcp.slot ≠ none ∨ s.cmu.state ≠ .idle) → 8 ≤ s.lcp.down.length →
      let s1 := ({ s with partTime := t } : State).captures .forwardOverflow .upstream t (256 * 255 + 1)
      exec (.upstreamFrameArrival t f) s = .next { s1 with cmu := { s1.cmu with more := true } })
    ∧ (f.dest = 255 → s.lcp.slot = none → s.cmu.state = .idle →
      ∃ s', exec (.upstreamFrameArrival t f) s = .next s'
        ∧ s' = { (copied.runCommand t f Cut.nothing).state.settled with ready := s.ready }
        ∧ s'.lcp.slot = none ∧ s'.lcp.down = copied.lcp.down ∧ s'.lcp.downTx = copied.lcp.downTx ∧ s'.cmu.state = .idle
        ∧ (s.lcp.down.length < 8 → s'.lcp.up = s.lcp.up) ∧ s'.partTime = t)

/-- Each command row is the arrival of its COMMAND frame at the upstream port, in whatever state, with the code of R206: addressed to the
station, broadcast, or on its way to another. That the row's operands are the frame's own is the model's choice (log 11, log 24). -/
def Obligations.CommandsArriveAsFrames : Prop :=
  ∀ (t : PartTime) (h : CommandHeader) (args : Bytes) (s : State),
    let frame (code : Byte) : Instr := .upstreamFrameArrival t ⟨h.dest, h.source, 1, h.tag, code :: args⟩
    exec (.readTable t h args) s = exec (frame 1) s ∧ exec (.writeTable t h args) s = exec (frame 2) s
    ∧ exec (.start t h args) s = exec (frame 3) s ∧ exec (.stop t h args) s = exec (frame 4) s
    ∧ exec (.announce t h args) s = exec (frame 5) s ∧ exec (.requestCal t h args) s = exec (frame 6) s
    ∧ exec (.setAddress t h args) s = exec (frame 7) s ∧ exec (.status t h args) s = exec (frame 8) s
    ∧ exec (.setScratch t h args) s = exec (frame 9) s ∧ exec (.clearCapture t h args) s = exec (frame 10) s
    ∧ exec (.restart t h args Cut.nothing) s = exec (frame 11) s

/-- The first two checks of R164: an empty payload or a code that names no command is UNKNOWN_COMMAND, arguments of the wrong length
are BAD_VALUE, and neither changes any state but the answer slot. -/
def Obligations.CommandFormChecks : Prop :=
  ∀ (t : PartTime) (h : CommandHeader) (s : State), s.takes h = true →
    exec (.upstreamFrameArrival t ⟨h.dest, h.source, 1, h.tag, []⟩) s = .next (s.withAnswer t h 1 [])
    ∧ (∀ (code : Byte) (args : Bytes), code.toNat = 0 ∨ 11 < code.toNat →
        exec (.upstreamFrameArrival t ⟨h.dest, h.source, 1, h.tag, code :: args⟩) s = .next (s.withAnswer t h 1 []))
    ∧ (∀ (code : Byte) (args : Bytes), 1 ≤ code.toNat → code.toNat ≤ 11 → argsRight code.toNat args = false →
        exec (.upstreamFrameArrival t ⟨h.dest, h.source, 1, h.tag, code :: args⟩) s = .next (s.withAnswer t h 4 []))

/-! ### The line chain -/

/-- A frame for another station is entered in the downstream forward buffer, 254 included, whose head a waiting transmitter takes at once,
or dropped with FORWARD_OVERFLOW when eight are held (R150, R153, R159). -/
def Obligations.UpstreamFramesForwarded : Prop :=
  ∀ (t : PartTime) (s : State) (f : LineFrame), s.hearsUpstream = true → f.dest ≠ s.lcp.address → f.dest ≠ 255 →
    (s.lcp.down.length < 8 → exec (.upstreamFrameArrival t f) s = .next { s with partTime := t, lcp := s.lcp.withDown f })
    ∧ (8 ≤ s.lcp.down.length → exec (.upstreamFrameArrival t f) s = .next
      (({ s with partTime := t } : State).captures .forwardOverflow .upstream t (256 * f.dest.toNat + f.kind.toNat)))

/-- A checked frame arriving at the downstream port is entered in the upstream forward buffer whatever its destination and kind, and is not
consumed (R152), an idle upstream transmitter taking the buffer's head at once (R157), or dropped with FORWARD_OVERFLOW when eight are
held (R153). -/
def Obligations.DownstreamFramesForwarded : Prop :=
  ∀ (t : PartTime) (s : State) (f : LineFrame), s.rstHigh = true → s.lcp.downDiscarding = false →
    (s.lcp.up.length < 8 → exec (.downstreamFrameArrival t f) s = .next { s with partTime := t, lcp := s.withUp f })
    ∧ (8 ≤ s.lcp.up.length → exec (.downstreamFrameArrival t f) s = .next
      (({ s with partTime := t } : State).captures .forwardOverflow .downstream t (256 * f.dest.toNat + f.kind.toNat)))

/-- UNKNOWN_KIND: a consumed frame that is no COMMAND (R151), and a head link frame that the routing table does not know (R174, R203),
are captured and have no other effect. A broadcast frame that is no COMMAND is captured so after its copy has been entered downstream,
where a waiting transmitter takes it (R151, R159), or dropped with FORWARD_OVERFLOW when eight frames are held (R153). -/
def Obligations.UnknownKindsCaptured : Prop :=
  (∀ (t : PartTime) (s : State) (f : LineFrame), s.hearsUpstream = true → f.dest = s.lcp.address → f.dest ≠ 255 → f.kind ≠ 1 →
    exec (.upstreamFrameArrival t f) s = .next
      (({ s with partTime := t } : State).captures .unknownKind .upstream t (256 * f.dest.toNat + f.kind.toNat)))
  ∧ (∀ (t : PartTime) (s : State) (f : LineFrame), s.hearsUpstream = true → f.dest = 255 → f.kind ≠ 1 →
    (s.lcp.down.length < 8 → exec (.upstreamFrameArrival t f) s = .next
      (({ s with partTime := t, lcp := s.lcp.withDown f } : State).captures .unknownKind .upstream t (256 * 255 + f.kind.toNat)))
    ∧ (8 ≤ s.lcp.down.length →
      let s1 := ({ s with partTime := t } : State).captures .forwardOverflow .upstream t (256 * 255 + f.kind.toNat)
      exec (.upstreamFrameArrival t f) s = .next { s1 with cmu := { s1.cmu with more := true } }))
  ∧ (∀ (t : PartTime) (s : State) (node kind : Byte) (payload : Bytes), s.hearsHeadLink = true →
    ¬ (kind = 3 ∧ 1 ≤ node.toNat ∧ node.toNat ≤ 8) → ¬ (kind = 4 ∧ node = 14) →
    exec (.headLinkUnknownKind t node kind payload) s = .next
      (({ s with partTime := t } : State).captures .unknownKind .headLink t (256 * node.toNat + kind.toNat)))

/-- A frame with a wrong check code is discarded and captured with the number of its bytes, and so are a frame cut short and one whose
length byte is above 248, at each of the three receivers; nothing else changes, but that after such a length byte the receiver discards
every byte and every frame until its line falls idle, without a capture (R149, R202). That the command carries the bytes received is the
model's choice (log 10), and so are the number of bytes counted at a length byte above 248 (log 15) and the part time captured of a frame
cut short, which is that of its discard (log 27). -/
def Obligations.DamagedFramesDiscarded : Prop :=
  ∀ (t : PartTime) (s : State), s.rstHigh = true →
    (∀ (f : LineFrame) (check : BitVec 16), f.payload.length ≤ 248 → check ≠ crc16 (lineBody f) →
      (s.lcp.upDiscarding = false → exec (.lineFrameCheck t .upstream (lineBody f ++ be16 check.toNat)) s = .next
        (({ s with partTime := t } : State).captures .lineFrameCheck .upstream t (7 + f.payload.length)))
      ∧ (s.lcp.downDiscarding = false → exec (.lineFrameCheck t .downstream (lineBody f ++ be16 check.toNat)) s = .next
        (({ s with partTime := t } : State).captures .lineFrameCheck .downstream t (7 + f.payload.length))))
    ∧ (∀ (f : HeadFrame) (check : BitVec 16), f.payload.length ≤ 248 → check ≠ crc16 (headBody f) → s.hlp.discarding = false →
      exec (.headFrameCheck t (headBody f ++ be16 check.toNat)) s = .next
        (({ s with partTime := t } : State).captures .headFrameCheck .headLink t (5 + f.payload.length)))
    ∧ (∀ (f : LineFrame) (n : Nat), f.payload.length ≤ 248 → 1 ≤ n → n < 7 + f.payload.length →
      (s.lcp.upDiscarding = false → exec (.lineFrameCheck t .upstream ((lineBytes f).take n)) s = .next
        (({ s with partTime := t } : State).captures .lineFrameCheck .upstream t n))
      ∧ (s.lcp.downDiscarding = false → exec (.lineFrameCheck t .downstream ((lineBytes f).take n)) s = .next
        (({ s with partTime := t } : State).captures .lineFrameCheck .downstream t n)))
    ∧ (∀ (f : HeadFrame) (n : Nat), f.payload.length ≤ 248 → 1 ≤ n → n < 5 + f.payload.length → s.hlp.discarding = false →
      exec (.headFrameCheck t ((headBytes f).take n)) s = .next
        (({ s with partTime := t } : State).captures .headFrameCheck .headLink t n))
    ∧ (∀ (dest source kind tag len : Byte) (rest : Bytes), 248 < len.toNat →
      (s.lcp.upDiscarding = false →
        let s1 := ({ s with partTime := t } : State).captures .lineFrameCheck .upstream t 5
        exec (.lineFrameCheck t .upstream ([dest, source, kind, tag, len] ++ rest)) s = .next
          { s1 with lcp := { s1.lcp with upDiscarding := true } })
      ∧ (s.lcp.downDiscarding = false →
        let s1 := ({ s with partTime := t } : State).captures .lineFrameCheck .downstream t 5
        exec (.lineFrameCheck t .downstream ([dest, source, kind, tag, len] ++ rest)) s = .next
          { s1 with lcp := { s1.lcp with downDiscarding := true } })
      ∧ (s.hlp.discarding = false →
        let s1 := ({ s with partTime := t } : State).captures .headFrameCheck .headLink t 3
        exec (.headFrameCheck t ([dest, source, len] ++ rest)) s = .next { s1 with hlp := { s1.hlp with discarding := true } }))
    ∧ (∀ (bytes : Bytes) (f : LineFrame) (node kind : Byte),
      (s.lcp.upDiscarding = true → exec (.lineFrameCheck t .upstream bytes) s = .next { s with partTime := t }
        ∧ exec (.upstreamFrameArrival t f) s = .next { s with partTime := t })
      ∧ (s.lcp.downDiscarding = true → exec (.lineFrameCheck t .downstream bytes) s = .next { s with partTime := t }
        ∧ exec (.downstreamFrameArrival t f) s = .next { s with partTime := t })
      ∧ (s.hlp.discarding = true → exec (.headFrameCheck t bytes) s = .next { s with partTime := t }
        ∧ exec (.shotReport t node bytes) s = .next { s with partTime := t }
        ∧ exec (.motionReport t node bytes) s = .next { s with partTime := t }
        ∧ exec (.headLinkUnknownKind t node kind bytes) s = .next { s with partTime := t }))

/-- A receiver takes from the bytes of a frame exactly the frame that was sent, on either link: every header byte and every payload of at
most 248 bytes (R200, R201, R202). -/
def Obligations.FramesRoundTrip : Prop :=
  (∀ f : LineFrame, f.payload.length ≤ 248 → receiveLine (lineBytes f) = .frame f)
  ∧ (∀ f : HeadFrame, f.payload.length ≤ 248 → receiveHead (headBytes f) = .frame f)

/-- The arbiter's first rows, whatever the progress of a RESTART (R157). An answer leaves the slot before anything else, and the answer of
a pending RESTART is then in transmission (R156, R178). Without one, a notice frame is formed with every pending kind, the level and the
eight head states, from the station address and with the report tag, which advances, and the notice set becomes empty (R145, R147); a
RESTART answer whose frame ended has then been sent (log 13). And what an idle transmitter takes at the end of a step: the answer or the
notices that became ready first in it, a busy transmitter or a step that made nothing ready taking nothing (R157; the field that
remembers the claimant is the model's own, log 26). -/
def Obligations.ArbiterAnswerThenNotice : Prop :=
  (∀ (t : PartTime) (s : State), s.rstHigh = true →
    (∀ f, s.lcp.slot = some f →
      exec (.upstreamTransmitterFree t) s = .next
        { s with
          partTime := t
          lcp := { s.lcp with slot := none, upTx := some f }
          cmu := { s.cmu with state := match s.cmu.state with | .idle => .idle | .restartPending _ => .restartPending .sending } })
    ∧ (s.lcp.slot = none → s.rqu.notices ≠ Notices.empty →
      exec (.upstreamTransmitterFree t) s = .next
        ({ s with
          partTime := t
          cmu := { s.cmu with state :=
            if s.cmu.state = .restartPending .sending then .restartPending .sent else s.cmu.state } } : State).noticeTaken))
  ∧ (∀ s : State,
    ((s.lcp.upTx ≠ none ∨ s.ready = none) → s.settled = s)
    ∧ (∀ f, s.lcp.upTx = none → s.ready = some .answer → s.lcp.slot = some f → s.settled =
      { s with
        lcp := { s.lcp with slot := none, upTx := some f }
        cmu := { s.cmu with state := match s.cmu.state with | .idle => .idle | .restartPending _ => .restartPending .sending } })
    ∧ (s.lcp.upTx = none → s.ready = some .notices → s.rqu.notices ≠ Notices.empty → s.settled = s.noticeTaken))

/-- The arbiter's last rows, no answer and no notice waiting, whatever the progress of a RESTART (R157): a forwarded frame while no result
waits or the share counter is below F, the counter rising only while results wait; otherwise the oldest result, which takes the report
tag and sets the counter to 0 (R145, R158); with nothing waiting the transmitter is free. A RESTART answer whose frame ended has then been
sent (log 13). And what an idle transmitter takes at the end of a step: the head of the buffer or of the queue that became ready first in
it (R157, log 26). -/
def Obligations.ArbiterSharesThePort : Prop :=
  (∀ (t : PartTime) (s : State), s.rstHigh = true → s.lcp.slot = none → s.rqu.notices = Notices.empty →
    let progress : CmuState := if s.cmu.state = .restartPending .sending then .restartPending .sent else s.cmu.state
    let freed : State := { s with partTime := t, cmu := { s.cmu with state := progress } }
    (∀ f rest, s.lcp.up = f :: rest → s.rqu.entries = [] →
      exec (.upstreamTransmitterFree t) s = .next { freed with lcp := { s.lcp with up := rest, upTx := some f } })
    ∧ (∀ f rest, s.lcp.up = f :: rest → s.rqu.entries ≠ [] → s.lcp.share < s.tst.share.getD 1 →
      exec (.upstreamTransmitterFree t) s = .next
        { freed with lcp := { s.lcp with up := rest, upTx := some f, share := s.lcp.share + 1 } })
    ∧ (∀ r rest, s.rqu.entries = r :: rest → (s.lcp.up = [] ∨ s.tst.share.getD 1 ≤ s.lcp.share) →
      exec (.upstreamTransmitterFree t) s = .next
        { freed with
          lcp := { s.lcp with
            share := 0
            upTx := some (match r with
              | .segment x => ⟨254, s.lcp.address, 3, s.rqu.tag, segmentPayload x⟩
              | .shell x => ⟨254, s.lcp.address, 4, s.rqu.tag, shellPayload x⟩) }
          rqu := { s.rqu with entries := rest, tag := s.rqu.tag + 1 } })
    ∧ (s.lcp.up = [] → s.rqu.entries = [] →
      exec (.upstreamTransmitterFree t) s = .next { freed with lcp := { s.lcp with upTx := none } }))
  ∧ (∀ s : State, s.lcp.upTx = none →
    (∀ f rest, s.ready = some .forwarded → s.lcp.up = f :: rest → s.settled =
      { s with lcp := { s.lcp with up := rest, upTx := some f, share := s.shareForwarding } })
    ∧ (∀ r rest, s.ready = some .results → s.rqu.entries = r :: rest → s.settled =
      { s with
        lcp := { s.lcp with
          share := 0
          upTx := some (match r with
            | .segment x => ⟨254, s.lcp.address, 3, s.rqu.tag, segmentPayload x⟩
            | .shell x => ⟨254, s.lcp.address, 4, s.rqu.tag, shellPayload x⟩) }
        rqu := { s.rqu with entries := rest, tag := s.rqu.tag + 1 } }))

/-- The downstream transmitter takes the head of its buffer, or waits (R159); the head link transmitter goes on to the next frame of its
queue (R205); a line that falls idle ends the discarding of its own receiver, and of no other (R161, R202). Nothing else changes. -/
def Obligations.LinksGoOn : Prop :=
  ∀ (t : PartTime) (s : State), s.rstHigh = true →
    (∀ f rest, s.lcp.down = f :: rest → exec (.downstreamTransmitterFree t) s = .next
      { s with partTime := t, lcp := { s.lcp with down := rest, downTx := some f } })
    ∧ (s.lcp.down = [] → exec (.downstreamTransmitterFree t) s = .next
      { s with partTime := t, lcp := { s.lcp with downTx := none } })
    ∧ (∀ f rest, s.hlp.queue = f :: rest → exec (.headLinkTransmitDone t) s = .next
      { s with partTime := t, hlp := { s.hlp with queue := rest } })
    ∧ exec (.lineFallsIdle t .headLink) s = .next { s with partTime := t, hlp := { s.hlp with discarding := false } }
    ∧ exec (.lineFallsIdle t .upstream) s = .next { s with partTime := t, lcp := { s.lcp with upDiscarding := false } }
    ∧ exec (.lineFallsIdle t .downstream) s = .next { s with partTime := t, lcp := { s.lcp with downDiscarding := false } }

/-! ### The head link -/

/-- A report that matches its head's outstanding fire closes it: the record becomes IDLE, the miss count falls by one, not below 0, a LOST
head whose count reaches 0 becomes ACTIVE with HEAD_BACK, and the head's other duties are undisturbed (R37, R38, R50, R51). The fire
resolves in the tally of its round; the last one of an ended round discards the tally, whose misses and skips make the round short or full
(R43, R44). Either recomputes the level, which raises LEVEL_CHANGE when it differs (R45). The shot of a MEASURE report then arrives at RSQ
as R93 has it (O45): it waits in an empty queue while no sample is held. A CALIBRATE report completes the calibration: two echoes at the
threshold give the correction k_new, OK within the limit and clamped into it with CAL_CLAMPED outside, and a good outcome; fewer, or the
energy-low flag, give FAILED, the correction kept, and a bad outcome; a request that names the head is cleared and the pointer moves to the
first enabled head after it; no shot, segment or shell is touched (R53, R54, R62, R63, R64). That an idle line chooses once the step is
whole, one notice frame then carrying every kind raised, HEAD_BACK, LEVEL_CHANGE and CAL_CLAMPED, and what the event left, and the field
ready, are log 26's choice (DEDUCED). -/
def Obligations.MatchingReportClosesFire : Prop :=
  ∀ (t : PartTime) (s : State) (h : Fin 8) (node : Byte) (payload : Bytes) (r : ShotReport) (expiry : PartTime) (round : Nat),
    s.hearsHeadLink = true → node.toNat = h.val + 1 → readShotReport payload = some r →
    s.fire h = .outstanding r.seq r.kind expiry round → s.HeadLawful h →
    let e := s.headEntry h
    let reached := r.echoes.filter fun x => decide (e.threshold ≤ x.amp)
    let shot : Shot := ⟨h, r.time, r.seq, r.temp, r.energyLow, r.echoes⟩
    let back := (s.head h).state = .lost ∧ (s.head h).miss = 1
    let last (x : Tally) := s.fsc.tallies.find? (fun y => y.round == round) = some x ∧ x.ended = true ∧ x.issued = x.resolved + 1
    ∃ s', exec (.shotReport t node payload) s = .next s'
      ∧ s'.partTime = t ∧ s'.fire h = .idle ∧ (∀ j, j ≠ h → s'.fire j = s.fire j)
      ∧ (s'.head h).miss = (s.head h).miss - 1 ∧ (∀ j, j ≠ h → s'.head j = s.head j)
      ∧ (s'.head h).state = (if back then .active else (s.head h).state) ∧ (back → s.Told s' 2)
      ∧ (∀ x, last x → s'.fsc.lastShort = decide (0 < x.misses ∨ 0 < x.skips) ∧ ∀ y ∈ s'.fsc.tallies, y.round ≠ round)
      ∧ ((∀ x, ¬ last x) → s'.fsc.lastShort = s.fsc.lastShort
        ∧ s'.fsc.tallies = s.fsc.tallies.map fun y => if y.round = round then { y with resolved := y.resolved + 1 } else y)
      ∧ ((back ∨ ∃ x, last x) → s'.fsc.level = if s.fsc.state = .halted then .config else s'.runningLevel)
      ∧ (¬ back → (∀ x, ¬ last x) → s'.fsc.level = s.fsc.level) ∧ (s'.fsc.level ≠ s.fsc.level → s.Told s' 0)
      ∧ s'.hcu.timer = s.hcu.timer ∧ s'.fsc.seqs = s.fsc.seqs ∧ s'.fsc.state = s.fsc.state ∧ s'.fsc.cycleCount = s.fsc.cycleCount
      ∧ s'.mtr.history = s.mtr.history ∧ s'.mtr.announce = s.mtr.announce ∧ s'.hlp = s.hlp ∧ s'.tst = s.tst
      ∧ (s.lcp.upTx ≠ none → s'.lcp = s.lcp)
      ∧ (r.kind = .measure →
        (s'.head h).k = (s.head h).k ∧ (s'.head h).cal = (s.head h).cal
        ∧ s'.hcu.request = s.hcu.request ∧ s'.hcu.pointer = s.hcu.pointer
        ∧ (∃ closed : State, closed.rsq = s.rsq ∧ closed.mtr = s.mtr ∧ closed.wmb = s.wmb ∧ closed.cmu = s.cmu ∧ closed.tst = s.tst
          ∧ closed.lcp = s.lcp ∧ closed.fsc = s'.fsc ∧ closed.rqu = { s.rqu with notices := closed.rqu.notices }
          ∧ (∀ j, (closed.head j).history = (s.head j).history ∧ (closed.head j).usable = (s.head j).usable ∧ (closed.head j).k = (s.head j).k)
          ∧ s' = { (closed.shotArrival shot).settled with ready := s.ready })
        ∧ (s.mtr.history = [] → s.rsq.items = [] →
          s'.rsq.items = [.shot shot]
          ∧ s'.wmb = s.wmb ∧ s'.mtr = s.mtr ∧ s'.cmu = s.cmu ∧ s.NoticeAtMost s'))
      ∧ (r.kind = .calibrate →
        s'.rsq = s.rsq ∧ s'.wmb = s.wmb ∧ s'.mtr = s.mtr ∧ s'.cmu = s.cmu ∧ s.NoticeAtMost s'
        ∧ (s.hcu.request ≠ some h → s'.hcu.request = s.hcu.request ∧ s'.hcu.pointer = s.hcu.pointer)
        ∧ (s.hcu.request = some h → s'.hcu.request = none
          ∧ (∀ i : Fin 8, s.enabled (h + 1 + i) = true → (∀ j : Fin 8, j < i → s.enabled (h + 1 + j) = false) →
              s'.hcu.pointer = h + 1 + i)
          ∧ ((∀ j, s.enabled j = false) → s'.hcu.pointer = h + 1))
        ∧ (∀ e0 e1 more, r.energyLow = false → reached = e0 :: e1 :: more →
          let kNew := roundDiv (65536 * e.reference) (e1.time - e0.time)
          (s'.head h).history = ((s.head h).history <<< 1) ||| 1#4
          ∧ (s'.head h).usable = s.pattern.getLsbD (s'.head h).history.toNat
          ∧ (65536 - e.limit ≤ kNew → kNew ≤ 65536 + e.limit → (s'.head h).k = kNew ∧ (s'.head h).cal = .ok)
          ∧ (65536 + e.limit < kNew → (s'.head h).k = 65536 + e.limit ∧ (s'.head h).cal = .clamped ∧ s.Told s' 4)
          ∧ (kNew < 65536 - e.limit → (s'.head h).k = 65536 - e.limit ∧ (s'.head h).cal = .clamped ∧ s.Told s' 4))
        ∧ ((r.energyLow = true ∨ reached.length < 2) →
          (s'.head h).k = (s.head h).k ∧ (s'.head h).cal = .failed ∧ (s'.head h).history = (s.head h).history <<< 1
          ∧ (s'.head h).usable = s.pattern.getLsbD ((s.head h).history <<< 1).toNat))

/-- A report that matches no outstanding fire is discarded (R37): LATE_REPLY when the head's last fire expired with its sequence and kind
(R40), UNSOLICITED otherwise (R41); the capture record alone is told. A report whose payload R204 calls malformed reaches no fire at all:
it is discarded as MALFORMED_SHOT with the echo count and the sequence it carries, and its fire stays as it is (R174, R204); what a
payload too short to hold the count or the sequence reports is a free value (log 9). -/
def Obligations.UnmatchedReportsDiscarded : Prop :=
  (∀ (t : PartTime) (s : State) (h : Fin 8) (node : Byte) (payload : Bytes) (r : ShotReport),
    s.hearsHeadLink = true → node.toNat = h.val + 1 → readShotReport payload = some r →
    (s.fire h = .idle → exec (.shotReport t node payload) s = .next
      (({ s with partTime := t } : State).captures .unsolicited (.head h) t r.seq.toNat))
    ∧ (s.fire h = .expired r.seq r.kind → exec (.shotReport t node payload) s = .next
      (({ s with partTime := t } : State).captures .lateReply (.head h) t r.seq.toNat))
    ∧ (∀ seq kind, s.fire h = .expired seq kind → (seq ≠ r.seq ∨ kind ≠ r.kind) →
      exec (.shotReport t node payload) s = .next
        (({ s with partTime := t } : State).captures .unsolicited (.head h) t r.seq.toNat))
    ∧ (∀ seq kind expiry round, s.fire h = .outstanding seq kind expiry round → (seq ≠ r.seq ∨ kind ≠ r.kind) →
      exec (.shotReport t node payload) s = .next
        (({ s with partTime := t } : State).captures .unsolicited (.head h) t r.seq.toNat)))
  ∧ (∀ (t : PartTime) (s : State) (h : Fin 8) (node : Byte) (payload : Bytes), s.hearsHeadLink = true → node.toNat = h.val + 1 →
    (6 < field payload 9 1 ∨ payload.length ≠ 10 + 4 * field payload 9 1 ∨ 1 < field payload 1 1
      ∨ ∃ i, i + 1 < field payload 9 1 ∧ field payload (10 + 4 * (i + 1)) 4 / 4096 ≤ field payload (10 + 4 * i) 4 / 4096) →
    (10 ≤ payload.length → exec (.shotReport t node payload) s = .next
      (({ s with partTime := t } : State).captures .malformedShot (.head h) t (256 * field payload 9 1 + field payload 0 1)))
    ∧ (payload.length < 10 → ∃ count seq : Byte, (∀ b rest, payload = b :: rest → seq = b) ∧
      exec (.shotReport t node payload) s = .next
        (({ s with partTime := t, freeCount := s.freeCount + 2 } : State).captures .malformedShot (.head h) t
          (256 * count.toNat + seq.toNat))))

/-- An accepted motion sample joins the history, the oldest of eight leaving it, and one pass takes from the front of the resolution
queue every item up to the first that is later than the sample, each leaving the queue and resolved in its turn; the end-of-pass checks
follow (R67, R68, R99, R101, R102). That an idle upstream transmitter chooses after them, once the pass is whole, and the field ready in
which the model remembers the first claimant, are log 26's choice (DEDUCED). -/
def Obligations.MotionSampleResolves : Prop :=
  ∀ (t : PartTime) (s : State) (payload : Bytes), s.hearsHeadLink = true → payload.length = 11 → (readMotion payload).2 = false →
    (∀ n, s.mtr.history.getLast? = some n → earlier n.tau (readMotion payload).1.tau = true) → s.mtr.history.length ≤ 8 →
    let history := (if s.mtr.history.length = 8 then s.mtr.history.drop 1 else s.mtr.history) ++ [(readMotion payload).1]
    let begun : State := { s with partTime := t, ready := none, mtr := { s.mtr with history := history } }
    let resolved (n : Nat) : State := (s.rsq.items.take n).foldl
      (fun a i => ({ a with rsq := ⟨a.rsq.items.drop 1⟩ } : State).resolveItem i) begun
    ∃ s' n, exec (.motionReport t 14 payload) s = .next s'
      ∧ (∀ i ∈ s.rsq.items.take n, earlier (readMotion payload).1.tau i.time = false)
      ∧ (∀ i, (s.rsq.items.drop n).head? = some i → earlier (readMotion payload).1.tau i.time = true)
      ∧ s' = { ((resolved n).endOfPass (readMotion payload).1.enc).settled with ready := s.ready }
      ∧ s'.mtr.history = history ∧ s'.rsq.items = s.rsq.items.drop n
      ∧ s'.fsc = s.fsc ∧ s'.hlp = s.hlp ∧ s'.tst = s.tst ∧ (s.lcp.upTx ≠ none → s'.lcp = s.lcp)
      ∧ s'.hcu.request = s.hcu.request ∧ s'.hcu.pointer = s.hcu.pointer ∧ s'.hcu.timer = s.hcu.timer
      ∧ s'.mtr.gateA = s.mtr.gateA ∧ s'.mtr.gateB = s.mtr.gateB

/-- A motion report with the fault flag has no effect, one not later than the newest sample held is captured as MOTION_ORDER (R67), and
one whose length is not 11 as HEAD_FRAME_CHECK (R203); the history, the queue and the contexts stay. -/
def Obligations.MotionReportsRefused : Prop :=
  ∀ (t : PartTime) (s : State) (payload : Bytes), s.hearsHeadLink = true →
    (payload.length = 11 → (readMotion payload).2 = true →
      exec (.motionReport t 14 payload) s = .next { s with partTime := t })
    ∧ (payload.length = 11 → (readMotion payload).2 = false →
      (∃ n, s.mtr.history.getLast? = some n ∧ earlier n.tau (readMotion payload).1.tau = false) →
      exec (.motionReport t 14 payload) s = .next
        (({ s with partTime := t } : State).captures .motionOrder .headLink t ((readMotion payload).1.tau.toNat % 65536)))
    ∧ (payload.length ≠ 11 → payload.length ≤ 248 →
      exec (.motionReport t 14 payload) s = .next
        (({ s with partTime := t } : State).captures .headFrameCheck .headLink t (5 + payload.length)))

/-! ### The firing schedule -/

/-- CYCLE_END. In RUNNING the next cycle starts at the END's part time with the count (c + 1) mod L and its cycle mark, and a new round
begins when the count returns to 0; in STOPPING the schedule stops and no mark is sent (R31, R32). The round that ends resolves at once
when every fire issued in it has resolved: it is short when it had a miss or a skip, its tally is discarded, and the level is recomputed,
LEVEL_CHANGE being raised when it differs (R44, R45); otherwise its tally is kept, marked ended, and the last result and the level stay
(R43, R44). The tallies of other rounds stay. That an idle line takes LEVEL_CHANGE once the step is whole is log 26's choice. -/
def Obligations.CycleEndFollows : Prop :=
  ∀ (s : State) (n offset roundLength : Nat), s.rstHigh = true → n < 48 → s.entry n = .fin offset →
    (∀ m, m < n → (s.entry m).isFin = false) → s.tst.header = some roundLength →
    let t := s.fsc.cycleStart + BitVec.ofNat 32 offset
    let count := (s.fsc.cycleCount + 1) % roundLength
    let roundEnded (s' : State) (begun : List Tally) : Prop :=
      (∀ x, s.fsc.tallies.find? (fun y => y.round == s.fsc.round) = some x →
        (x.issued = x.resolved → s'.fsc.lastShort = decide (0 < x.misses ∨ 0 < x.skips) ∧ s'.fsc.level = s'.runningLevel
          ∧ s'.fsc.tallies = s.fsc.tallies.filter (fun y => decide (y.round ≠ s.fsc.round)) ++ begun)
        ∧ (x.issued ≠ x.resolved → s'.fsc.lastShort = s.fsc.lastShort ∧ s'.fsc.level = s.fsc.level
          ∧ s'.fsc.tallies = s.fsc.tallies.map (fun y => if y.round = s.fsc.round then { y with ended := true } else y) ++ begun))
      ∧ (s'.fsc.level ≠ s.fsc.level → s.Told s' 0) ∧ s.NoticeAtMost s'
    (s.fsc.state = .running → count ≠ 0 →
      exec .cycleEnd s = .next
        { s with
          partTime := t
          fsc := { s.fsc with cycleCount := count, cycleStart := t, place := 0 }
          hlp := { s.hlp with queue := s.hlp.queue ++ [⟨0, 1, BitVec.ofNat 8 count :: be32 t.toNat⟩] } })
    ∧ (s.fsc.state = .running → count = 0 →
      ∃ s', exec .cycleEnd s = .next s' ∧ s'.partTime = t ∧ s'.fsc.state = .running ∧ s'.fsc.cycleCount = 0
        ∧ s'.fsc.cycleStart = t ∧ s'.fsc.place = 0 ∧ s'.fsc.round = s.fsc.round + 1
        ∧ s'.fsc.tallies.getLast? = some ⟨s.fsc.round + 1, 0, 0, 0, 0, false⟩
        ∧ roundEnded s' [⟨s.fsc.round + 1, 0, 0, 0, 0, false⟩]
        ∧ s'.fsc.records = s.fsc.records ∧ s'.fsc.seqs = s.fsc.seqs
        ∧ s'.hlp.queue = s.hlp.queue ++ [⟨0, 1, 0 :: be32 t.toNat⟩]
        ∧ s'.hcu = s.hcu ∧ s'.mtr = s.mtr ∧ s'.rsq = s.rsq ∧ s'.wmb = s.wmb ∧ s'.cmu = s.cmu ∧ s'.tst = s.tst)
    ∧ (s.fsc.state = .stopping →
      ∃ s', exec .cycleEnd s = .next s' ∧ s'.partTime = t ∧ s'.fsc.state = .stopped ∧ s'.fsc.cycleCount = s.fsc.cycleCount
        ∧ roundEnded s' [] ∧ s'.fsc.records = s.fsc.records ∧ s'.fsc.seqs = s.fsc.seqs ∧ s'.hlp = s.hlp
        ∧ s'.hcu = s.hcu ∧ s'.mtr = s.mtr ∧ s'.rsq = s.rsq ∧ s'.wmb = s.wmb ∧ s'.cmu = s.cmu ∧ s'.tst = s.tst)

/-- FIRING_POINT selected by the cycle count, its head with no fire outstanding: a FIRE_ORDER with the head's sequence, which advances;
CALIBRATE exactly when the request names the head, the entry allows the steal and deferral does not hold; the record OUTSTANDING until
the profile's half has run; one fire more in the round's tally; nothing else changes (R24, R25, R33, R34, R35). -/
def Obligations.FiringPointFires : Prop :=
  ∀ (s : State) (n : Fin 48) (offset : Nat) (h : Fin 8) (period phase : Nat) (w : Fin 4) (steal : Bool) (profile : Profile),
    s.rstHigh = true → s.cyclesRun = true → s.entry n.val = .shot offset h period phase w steal →
    (∀ m, m ≤ n.val → (s.entry m).isFin = false) → s.fsc.place ≤ n.val →
    s.fsc.cycleCount % period = phase → s.tst.profiles[w] = some profile →
    (∀ seq kind expiry round, s.fire h ≠ .outstanding seq kind expiry round) →
    let t := s.fsc.cycleStart + BitVec.ofNat 32 offset
    let calibrate := s.hcu.request = some h ∧ steal = true
      ∧ ¬ (s.calSetup.defer = true ∧ ∃ i c, s.ctx i = some c ∧ (c.phase = .measuring ∨ c.phase = .tailing))
    let fired (kind : FireKind) (code : Byte) (window : Nat) : State :=
      { s with
        partTime := t
        hlp := { s.hlp with queue := s.hlp.queue ++ [⟨0, 2, [BitVec.ofNat 8 h.val, s.fsc.seqs[h], code]⟩] }
        fsc := { s.fsc with
          place := n.val + 1
          records := s.fsc.records.set h (.outstanding s.fsc.seqs[h] kind (t + BitVec.ofNat 32 window) s.fsc.round)
          seqs := s.fsc.seqs.set h (s.fsc.seqs[h] + 1)
          tallies := s.fsc.tallies.map fun x => if x.round = s.fsc.round then { x with issued := x.issued + 1 } else x } }
    (calibrate → exec (.firingPoint n) s = .next (fired .calibrate 1 profile.calibrate))
    ∧ (¬ calibrate → exec (.firingPoint n) s = .next (fired .measure 0 profile.measure))

/-- FIRING_POINT whose head has a fire outstanding is skipped: no order, no advance of the sequence, a skip in the round's tally and
TRIGGER_SKIP in the capture record (R33); an entry that the count does not select passes with no effect (R24). -/
def Obligations.FiringPointSkips : Prop :=
  ∀ (s : State) (n : Fin 48) (offset : Nat) (h : Fin 8) (period phase : Nat) (w : Fin 4) (steal : Bool),
    s.rstHigh = true → s.cyclesRun = true → s.entry n.val = .shot offset h period phase w steal →
    (∀ m, m ≤ n.val → (s.entry m).isFin = false) → s.fsc.place ≤ n.val →
    let t := s.fsc.cycleStart + BitVec.ofNat 32 offset
    (s.fsc.cycleCount % period = phase → (∃ seq kind expiry round, s.fire h = .outstanding seq kind expiry round) →
      exec (.firingPoint n) s = .next
        (({ s with
          partTime := t
          fsc := { s.fsc with
            place := n.val + 1
            tallies := s.fsc.tallies.map fun x => if x.round = s.fsc.round then { x with skips := x.skips + 1 } else x } }
          : State).captures .triggerSkip (.head h) t n.val))
    ∧ (s.fsc.cycleCount % period ≠ phase →
      exec (.firingPoint n) s = .next { s with partTime := t, fsc := { s.fsc with place := n.val + 1 } })

/-- REPLY_WINDOW_EXPIRY of an outstanding fire is a miss, dated at the expiry time: the record EXPIRED with the fire's sequence and kind,
the miss count up by one but not above 7, one bad outcome; for a CALIBRATE fire the calibration FAILED with k kept, and a request that names
the head cleared, the pointer moving to the first enabled head after it (R62); no other head, and no shot, segment or table, is touched
(R39, R50, R53, R54, R62). An ACTIVE head whose count reaches 7 becomes LOST, HEAD_LOST is raised
and every live context marked DEGRADED_HEADS (R51, R52). The miss resolves in the tally of the fire's round; the last one of an ended
round makes it short (R43, R44). Either recomputes the level, which raises LEVEL_CHANGE when it differs (R45). That an idle line chooses
once the step is whole, HEAD_LOST and LEVEL_CHANGE standing in one frame with the level that the event left, is log 26's choice
(DEDUCED). -/
def Obligations.WindowExpiryMisses : Prop :=
  ∀ (s : State) (h : Fin 8) (seq : Byte) (kind : FireKind) (expiry : PartTime) (round : Nat), s.rstHigh = true →
    s.fire h = .outstanding seq kind expiry round →
    let becomesLost := (s.head h).state = .active ∧ 6 ≤ (s.head h).miss
    let resolves := ∃ x, s.fsc.tallies.find? (fun y => y.round == round) = some x ∧ x.ended = true ∧ x.issued = x.resolved + 1
    ∃ s', exec (.replyWindowExpiry h) s = .next s'
      ∧ s'.partTime = expiry ∧ s'.fire h = .expired seq kind ∧ (∀ j, j ≠ h → s'.fire j = s.fire j)
      ∧ (s'.head h).miss = min 7 ((s.head h).miss + 1) ∧ (s'.head h).history = (s.head h).history <<< 1
      ∧ (s'.head h).usable = s.pattern.getLsbD ((s.head h).history <<< 1).toNat
      ∧ (s'.head h).k = (s.head h).k
      ∧ (s'.head h).cal = (match kind with | .measure => (s.head h).cal | .calibrate => .failed)
      ∧ (∀ j, j ≠ h → s'.head j = s.head j)
      ∧ s'.hcu.timer = s.hcu.timer
      ∧ ((kind = .measure ∨ s.hcu.request ≠ some h) → s'.hcu.request = s.hcu.request ∧ s'.hcu.pointer = s.hcu.pointer)
      ∧ (kind = .calibrate → s.hcu.request = some h → s'.hcu.request = none
        ∧ (∀ i : Fin 8, s.enabled (h + 1 + i) = true → (∀ j : Fin 8, j < i → s.enabled (h + 1 + j) = false) →
            s'.hcu.pointer = h + 1 + i)
        ∧ ((∀ j, s.enabled j = false) → s'.hcu.pointer = h + 1))
      ∧ (becomesLost → (s'.head h).state = .lost ∧ s.Told s' 1
        ∧ (∀ i, s'.ctx i = (s.ctx i).map fun c => { c with flags := { c.flags with degradedHeads := true } })
        ∧ s'.mtr = { s.mtr with contexts := s'.mtr.contexts })
      ∧ (¬ becomesLost → (s'.head h).state = (s.head h).state ∧ s'.mtr = s.mtr)
      ∧ (resolves → s'.fsc.lastShort = true ∧ ∀ y ∈ s'.fsc.tallies, y.round ≠ round)
      ∧ (¬ resolves → s'.fsc.lastShort = s.fsc.lastShort
        ∧ s'.fsc.tallies = s.fsc.tallies.map fun y =>
            if y.round = round then { y with resolved := y.resolved + 1, misses := y.misses + 1 } else y)
      ∧ (becomesLost ∨ resolves → s'.fsc.level = if s.fsc.state = .halted then .config else s'.runningLevel)
      ∧ (¬ becomesLost → ¬ resolves → s'.fsc.level = s.fsc.level)
      ∧ (s'.fsc.level ≠ s.fsc.level → s.Told s' 0)
      ∧ s.NoticeAtMost s' ∧ s'.rsq = s.rsq ∧ s'.wmb = s.wmb ∧ s'.rqu.entries = s.rqu.entries
      ∧ s'.hlp = s.hlp ∧ s'.cmu = s.cmu ∧ s'.tst = s.tst ∧ s'.fsc.seqs = s.fsc.seqs ∧ s'.fsc.state = s.fsc.state

/-- CALIBRATION_TIMER_EXPIRY of an armed timer, dated at arming plus the armed interval: without a request, the first enabled head at or
after the pointer is requested, or none when no head is enabled; with one pending, CAL_OVERRUN is raised (R157); the timer is rearmed from the
expiry for the interval then held, or stops when that is 0; the pointer stays (R58, R59). -/
def Obligations.CalibrationTimerExpires : Prop :=
  ∀ (s : State) (x : CalTimer), s.rstHigh = true → s.hcu.timer = some x →
    let t := x.since + BitVec.ofNat 32 (x.interval * 1000000)
    let timer := if s.calSetup.interval = 0 then none else some ⟨t, s.calSetup.interval⟩
    (s.hcu.request ≠ none → exec .calibrationTimerExpiry s = .next
      ({ s with
        partTime := t
        hcu := { s.hcu with timer := timer }
        rqu := { s.rqu with notices := { s.rqu.notices with calOverrun := true } } } : State).notified)
    ∧ (s.hcu.request = none → (∀ h, s.enabled h = false) → exec .calibrationTimerExpiry s = .next
      { s with partTime := t, hcu := { s.hcu with timer := timer } })
    ∧ (∀ i : Fin 8, s.hcu.request = none → s.enabled (s.hcu.pointer + i) = true →
      (∀ j : Fin 8, j < i → s.enabled (s.hcu.pointer + j) = false) → exec .calibrationTimerExpiry s = .next
        { s with partTime := t, hcu := { s.hcu with request := some (s.hcu.pointer + i), timer := timer } })

/-! ### The gates -/

/-- GATE_LINE_CHANGE to the level that the line already has moves the part time alone, which is log 3's reading (DEDUCED). A change away from
the settled level begins a pending change dated then, with the filter time read then; with a filter time of
0 the change is taken at once, and its edge dated then goes on to RSQ, or no further for a GATE_B fall (R73, R74, R97). Back to the
settled level discards the pending change, and no edge results; the other filter is not disturbed (R73, R74). That an idle line chooses
once the edge has had its whole effect (State.handsOn) is log 26's choice. -/
def Obligations.GateLineChangeFilters : Prop :=
  ∀ (t : PartTime) (s : State) (line : GateLine) (high : Bool), s.rstHigh = true →
    let taken := ({ s with partTime := t } : State).setFilter line ⟨high, high, none⟩
    ((s.filter line).line = high → exec (.gateLineChange t line high) s = .next { s with partTime := t })
    ∧ ((s.filter line).line ≠ high → high ≠ (s.filter line).settled → s.track.filterTime ≠ 0 →
      exec (.gateLineChange t line high) s = .next
        (({ s with partTime := t } : State).setFilter line ⟨high, (s.filter line).settled, some ⟨t, s.track.filterTime⟩⟩))
    ∧ ((s.filter line).line ≠ high → high ≠ (s.filter line).settled → s.track.filterTime = 0 →
      (line = .b → high = false → exec (.gateLineChange t line high) s = .next taken)
      ∧ ((line = .a ∨ high = true) → exec (.gateLineChange t line high) s = .next (taken.handsOn ⟨line, high, t⟩)))
    ∧ ((s.filter line).line ≠ high → high = (s.filter line).settled →
      exec (.gateLineChange t line high) s = .next
        (({ s with partTime := t } : State).setFilter line ⟨high, (s.filter line).settled, none⟩))

/-- GATE_FILTER_EXPIRY takes a pending change: the settled level becomes the new level, and the edge is dated at the change's beginning
(R73). A GATE_B fall goes no further (R74). An edge handed on is resolved at once when its date is not later than the newest held sample
(R97, R98), and waits in the resolution queue otherwise, and while no sample is held, when fewer than four gate items are held; with four
held it is lost with GATE_OVERFLOW (R97, R174). That an idle line chooses once an edge resolved at once has had its whole effect, and the
field ready in which the model remembers the first claimant, are log 26's choice (DEDUCED). -/
def Obligations.GateFilterTakesEdge : Prop :=
  (∀ (s : State) (line : GateLine) (x : PendingChange), s.rstHigh = true → (s.filter line).pending = some x →
    let rise := !(s.filter line).settled
    let taken := ({ s with partTime := x.since + BitVec.ofNat 32 x.filterTime } : State).setFilter line ⟨(s.filter line).line, rise, none⟩
    (line = .b → rise = false → exec (.gateFilterExpiry line) s = .next taken)
    ∧ ((line = .a ∨ rise = true) → exec (.gateFilterExpiry line) s = .next (taken.handsOn ⟨line, rise, x.since⟩)))
  ∧ (∀ (s : State) (g : GateEdge),
    let detail : Nat := (match g.line with | .a => 0 | .b => 256) + (if g.rise = true then 1 else 0)
    ((∀ n, s.mtr.history.getLast? = some n → earlier n.tau g.date = true) →
      (s.rsq.gates < 4 → s.handsOn g = { s with rsq := ⟨insertItem (.gate g) s.rsq.items⟩ })
      ∧ (4 ≤ s.rsq.gates → s.handsOn g = s.captures .gateOverflow .gates g.date detail))
    ∧ (∀ n, s.mtr.history.getLast? = some n → earlier n.tau g.date = false →
      s.handsOn g = { (({ s with ready := none } : State).resolveGate g).settled with ready := s.ready }))

/-! ### Resolution, placement and evaluation -/

/-- An arriving item is placed immediately before the first held item that sorts after it, or at the end, and the held items keep their
order among themselves; a held item sorts after an arriving one when its time is later, or when the times are equal and it is a shot
while the other is a gate item or a shot of a lower head index (R92). A measuring shot that arrives meets the rows of R93 in order: a held
shot of its head and time discards it as DUPLICATE_SHOT; a time before the oldest held sample as STALE_SHOT, with the time by which it
precedes that sample; a time not later than the newest has it resolved at once with its bracket (R98); sixty shots held discard it as
RESOLVE_OVERFLOW; otherwise it is inserted and waits. An item that a pass resolves is stale or resolved with its bracket in the same way
(R99). A capture's claim on the upstream transmitter is State.report's (log 26). -/
def Obligations.ItemInsertedInOrder : Prop :=
  (∀ (new : Item) (items : List Item), ∃ before after, items = before ++ after ∧ insertItem new items = before ++ new :: after
    ∧ (∀ i ∈ before, sortsAfter i new = false) ∧ (∀ i, after.head? = some i → sortsAfter i new = true))
  ∧ (∀ held new : Item, sortsAfter held new = true ↔
      0 < (held.time - new.time).toInt
      ∨ (held.time = new.time ∧ ∃ a, held = .shot a ∧ ∀ b, new = .shot b → b.head < a.head))
  ∧ (∀ (s : State) (x : Shot),
    let duplicate := ∃ y, Item.shot y ∈ s.rsq.items ∧ y.head = x.head ∧ y.time = x.time
    let stale (o : Sample) := s.mtr.history.head? = some o ∧ earlier x.time o.tau = true
    let staleShot (o : Sample) := s.report .staleShot (.head x.head) x.time (min 65535 (o.tau - x.time).toNat)
    let notLater := ∃ n, s.mtr.history.getLast? = some n ∧ earlier n.tau x.time = false
    (duplicate → s.shotArrival x = s.report .duplicateShot (.head x.head) x.time x.seq.toNat)
    ∧ (∀ o, stale o → (¬ duplicate → s.shotArrival x = staleShot o) ∧ s.resolveItem (.shot x) = staleShot o)
    ∧ (¬ duplicate → (∀ o, ¬ stale o) → notLater →
      ∃ b, bracket s.mtr.history x.time = some b ∧ s.shotArrival x = s.resolveBracketed x b)
    ∧ (∀ b, (∀ o, ¬ stale o) → bracket s.mtr.history x.time = some b → s.resolveItem (.shot x) = s.resolveBracketed x b)
    ∧ (¬ duplicate → (∀ o, ¬ stale o) → ¬ notLater →
      (60 ≤ s.rsq.shots → s.shotArrival x = s.report .resolveOverflow (.head x.head) x.time x.seq.toNat)
      ∧ (s.rsq.shots < 60 → s.shotArrival x = { s with rsq := ⟨insertItem (.shot x) s.rsq.items⟩ })))

/-- The bracket of a time, in a history whose samples are in ascending order: the latest held sample not later than it and the earliest not
earlier, none when a side has no sample, and the sample itself on both sides at its own time (R69; log 25 has the histories that no order
covers). The motion at a time is linear between the two: the encoder count of the first, moved by the signed difference of the counts times
the elapsed part of the span, rounded to nearest with ties away from zero, and the rotation likewise modulo 4096 (R70); at a sample's own
time it is that sample, at either end. A gate edge before the oldest sample takes that sample's motion, clamped, and any other the motion
of its bracket (R72, R99), and drives the shell state machine by its line and direction (R74). -/
def Obligations.MotionAtSamples : Prop :=
  (∀ (a b : Sample),
    motionIn (a, b) a.tau = ⟨a.enc, a.rho⟩ ∧ (span (a, b) ≠ 0 → motionIn (a, b) b.tau = ⟨b.enc, b.rho⟩))
  ∧ (∀ (history : List Sample) (t : PartTime), history.Pairwise (fun a b => earlier a.tau b.tau = true) →
    (∀ lo hi, bracket history t = some (lo, hi) →
      (lo ∈ history ∧ earlier t lo.tau = false ∧ ∀ x ∈ history, earlier t x.tau = false → x = lo ∨ earlier x.tau lo.tau = true)
      ∧ (hi ∈ history ∧ earlier hi.tau t = false ∧ ∀ x ∈ history, earlier x.tau t = false → x = hi ∨ earlier hi.tau x.tau = true))
    ∧ (bracket history t = none ↔ (∀ x ∈ history, earlier t x.tau = true) ∨ (∀ x ∈ history, earlier x.tau t = true))
    ∧ (∀ x ∈ history, bracket history x.tau = some (x, x)))
  ∧ (∀ (a b : Sample) (t : PartTime), b.tau ≠ a.tau →
    let whole := (b.tau - a.tau).toNat
    let part : Int := (t - a.tau).toNat
    (∃ q, (motionIn (a, b) t).enc = a.enc + BitVec.ofInt 32 q ∧ RoundsTo ((b.enc - a.enc).toInt * part) whole q)
    ∧ (∃ q, (motionIn (a, b) t).rho = a.rho + BitVec.ofInt 12 q ∧ RoundsTo ((b.rho - a.rho).toInt * part) whole q))
  ∧ (∀ (history : List Sample) (o : Sample) (rest : List Sample) (date : PartTime), history = o :: rest →
    (earlier date o.tau = true → gateMotion history date = (⟨o.enc, o.rho⟩, true))
    ∧ (∀ b, earlier date o.tau = false → bracket history date = some b → gateMotion history date = (motionIn b date, false)))
  ∧ (∀ (s : State) (date : PartTime),
    let m := gateMotion s.mtr.history date
    s.resolveItem (.gate ⟨.a, true, date⟩) = s.gateARise date m.1 m.2
    ∧ s.resolveItem (.gate ⟨.a, false, date⟩) = s.gateAFall date m.1 m.2
    ∧ s.resolveItem (.gate ⟨.b, true, date⟩) = s.gateBRise date m.1 m.2)

/-- A resolved GATE_A rise is ignored as GATE_UNCONFIGURED while the tracking record is unloaded, and as GATE_SEQUENCE while a context is
ENTERING or MEASURING or none is FREE (R77). Otherwise a shell enters in the lowest FREE slot: ENTERING, with the counter's number, the
oldest announced product or the last entered one, the motion at the edge and the nominal scale; a loaded product gives its grade, with
NO_GRADE while a part of that curve is unloaded, an unloaded one NO_PRODUCT; DEGRADED_HEADS while some head is LOST; the shell of the other
slot, if it is live, is the older; the counter and the announce queue advance and one reservation more is held (R52, R75, R76, R77, R78,
R141). When entries and reservations already fill the 64 places, the oldest entry is discarded first, with RESULT_OVERFLOW of its shell
number, and a segment report of a shell still live moves in that shell's summary from reported to lost; the rise then goes on as with
room (R144). A capture's claim on the upstream transmitter is State.report's (log 26). -/
def Obligations.GateARiseEntersShell : Prop :=
  ∀ (s : State) (date : PartTime) (m : Motion) (clamped : Bool),
    let beforeTail := ∃ i c, s.ctx i = some c ∧ (c.phase = .entering ∨ c.phase = .measuring)
    let free := s.ctx 0 = none ∨ s.ctx 1 = none
    let s' := s.gateARise date m clamped
    (s.tst.tracking = none → s' = s.report .gateUnconfigured .gates date 1)
    ∧ (s.tst.tracking ≠ none → (beforeTail ∨ ¬ free) → s' = s.report .gateSequence .gates date 1)
    ∧ (∀ x, s.tst.tracking = some x → ¬ beforeTail → free → s.rqu.entries.length + s.rqu.reservations < 64 →
      let slot : Fin 2 := if s.ctx 0 = none then 0 else 1
      (∃ c, s'.ctx slot = some c ∧ c.phase = .entering ∧ c.shell = s.mtr.shellCounter ∧ c.encA = m.enc ∧ c.rhoA = m.rho
          ∧ c.scale = x.nominal ∧ c.encTail = none ∧ c.length = none ∧ c.heldTemp = none ∧ c.boundary = 0
          ∧ c.summary = Summary.zero ∧ c.flags.gateTimeClamped = clamped
          ∧ c.flags.unannounced = s.mtr.announce.isEmpty ∧ c.flags.trackDeviation = false ∧ c.flags.scaleNominal = false
          ∧ c.flags.gateBMissed = false ∧ (c.flags.degradedHeads = true ↔ ∃ h, (s.head h).state = .lost)
          ∧ c.product = (match s.mtr.announce with | p :: _ => p | [] => s.mtr.lastProduct.getD 0)
          ∧ c.flags.noProduct = (s.tst.products[c.product]).isNone
          ∧ (s.tst.products[c.product] = none → c.grade = none ∧ c.flags.noGrade = false)
          ∧ (∀ p (g : Fin 8), s.tst.products[c.product] = some p → p.grade = g.val → c.grade = some g
            ∧ (c.flags.noGrade = true ↔ ∃ n, n < 3 ∧ s.tst.loaded 3 (3 * g.val + n) = false))
          ∧ s'.mtr.lastProduct = some c.product)
      ∧ (∀ i, i ≠ slot → s'.ctx i = s.ctx i ∧ (s'.mtr.older = i ↔ s.ctx i ≠ none))
      ∧ s'.mtr.shellCounter = (if s.mtr.shellCounter = 65535 then 1 else s.mtr.shellCounter + 1)
      ∧ s'.mtr.announce = s.mtr.announce.drop 1
      ∧ s'.mtr.history = s.mtr.history ∧ s'.mtr.gateA = s.mtr.gateA ∧ s'.mtr.gateB = s.mtr.gateB
      ∧ s' = { s with mtr := s'.mtr, rqu := { s.rqu with reservations := s.rqu.reservations + 1 } })
    ∧ (∀ r rest, s.tst.tracking ≠ none → ¬ beforeTail → free → s.rqu.entries = r :: rest →
      s.rqu.entries.length + s.rqu.reservations = 64 →
      let discarded (shell : Nat) := ({ s with rqu := { s.rqu with entries := rest } } : State).report .resultOverflow .upstream date shell
      (∀ x, r = .shell x → s' = (discarded x.shell).gateARise date m clamped)
      ∧ (∀ x, r = .segment x →
        let s1 := discarded x.shell
        let toLost (c : ShellContext) : ShellContext :=
          if c.shell = x.shell then
            { c with summary := { c.summary with reported := c.summary.reported - 1, lost := min 65535 (c.summary.lost + 1) } }
          else c
        s' = ({ s1 with mtr := { s1.mtr with contexts := s1.mtr.contexts.map (Option.map toLost) } } : State).gateARise date m clamped))

/-- A GATE_B rise acts on the ENTERING context: it becomes MEASURING with the measured scale when the encoder has advanced and the figure
lies within the limit, and otherwise with the scale it has, TRACK_DEVIATION and SCALE_NOMINAL (R80, R81). A GATE_A fall acts on the context
before its tail: TAILING, with the encoder count at the edge and the length at its scale, floored and not below 0, SCALE_NOMINAL if it was
ENTERING (R83, R84). A clamped edge sets GATE_TIME_CLAMPED (R72). With no such context the edge is ignored as GATE_SEQUENCE. Nothing else
changes. Placement (R86): NO_TUBE while no context is MEASURING or TAILING, UNTRACKED when the bracket's span exceeds the gap limit, and
else the older such context on which the shot lies, its axial coordinate the floored travel less P_h, at least 0 and below the length when
there is one (R87), or NO_TUBE. On the shell, an index above 1023 is OUT_OF_RANGE; the sector is the tube-fixed angle's; a NO_PRODUCT shell
takes segment 0 and sector 0 (R88, R89). A NO_TUBE shot is dropped, and the other two are captured (R71, R86, R88). -/
def Obligations.ShellsTrackedAndShotsPlaced : Prop :=
  (∀ (s : State) (date : PartTime) (m : Motion) (clamped : Bool),
    let flagged (c : ShellContext) : ShellFlags := { c.flags with gateTimeClamped := c.flags.gateTimeClamped || clamped }
    (∀ i c, s.ctx i = some c → c.phase = .entering → (∀ j c', j ≠ i → s.ctx j = some c' → c'.phase ≠ .entering) →
      let diff := (m.enc - c.encA).toInt
      let measured := roundDiv (s.track.gateDist * 65536) diff.toNat
      let off := |(measured : Int) - s.track.nominal| * 1024
      (0 < diff → off ≤ s.track.nominal * s.track.scaleLimit →
        s.gateBRise date m clamped = s.setCtx i (some { c with phase := .measuring, scale := measured, flags := flagged c }))
      ∧ ((diff ≤ 0 ∨ (s.track.nominal * s.track.scaleLimit : Nat) < off) →
        s.gateBRise date m clamped = s.setCtx i (some
          { c with phase := .measuring, flags := { flagged c with trackDeviation := true, scaleNominal := true } })))
    ∧ ((∀ i c, s.ctx i = some c → c.phase ≠ .entering) → s.gateBRise date m clamped = s.report .gateSequence .gates date 257)
    ∧ (∀ i c, s.ctx i = some c → (c.phase = .entering ∨ c.phase = .measuring) →
      (∀ j c', j ≠ i → s.ctx j = some c' → c'.phase ≠ .entering ∧ c'.phase ≠ .measuring) →
      s.gateAFall date m clamped = s.setCtx i (some
        { c with
          phase := .tailing
          encTail := some m.enc
          length := some (Int.fdiv ((m.enc - c.encA).toInt * c.scale) 65536).toNat
          flags := { flagged c with scaleNominal := c.flags.scaleNominal || decide (c.phase = .entering) } }))
    ∧ ((∀ i c, s.ctx i = some c → c.phase ≠ .entering ∧ c.phase ≠ .measuring) →
      s.gateAFall date m clamped = s.report .gateSequence .gates date 0))
  ∧ (∀ (s : State) (h : Fin 8) (t : PartTime) (b : Sample × Sample),
    let m := motionIn b t
    let x (c : ShellContext) : Int := Int.fdiv ((m.enc - c.encA).toInt * c.scale) 65536 - (s.headEntry h).distance
    let holds (c : ShellContext) : Prop := c.phase = .measuring ∨ c.phase = .tailing
    let lies (c : ShellContext) : Prop := holds c ∧ 0 ≤ x c ∧ ∀ l, c.length = some l → x c < (l : Nat)
    ((∀ i c, s.ctx i = some c → ¬ holds c) → s.place h t b = .noTube)
    ∧ ((∃ i c, s.ctx i = some c ∧ holds c) → s.track.gapLimit < span b → s.place h t b = .untracked (span b))
    ∧ (span b ≤ s.track.gapLimit →
      ((∀ i c, s.ctx i = some c → ¬ lies c) → s.place h t b = .noTube)
      ∧ (∀ i c, s.ctx i = some c → lies c → (i = s.mtr.older ∨ ∀ co, s.ctx s.mtr.older = some co → ¬ lies co) →
        let p := s.productEntry c.product
        let segment := (x c).toNat / p.segLength
        (c.flags.noProduct = true → s.place h t b = .placed ⟨i, c.shell, 0, 0, (x c).toNat⟩)
        ∧ (c.flags.noProduct = false → 1023 < segment → s.place h t b = .outOfRange c.shell)
        ∧ (c.flags.noProduct = false → segment ≤ 1023 → s.place h t b = .placed ⟨i, c.shell, segment,
            (((s.headEntry h).theta - ((m.rho.toNat : Int) - c.rhoA.toNat)) % 4096).toNat * p.sectors / 4096, (x c).toNat⟩)))
    ∧ (∀ shot : Shot, shot.head = h → shot.time = t →
      (s.place h t b = .noTube → s.resolveBracketed shot b = s)
      ∧ (∀ sp, s.place h t b = .untracked sp → s.resolveBracketed shot b = s.report .untracked (.head h) t (min 65535 sp))
      ∧ (∀ shell, s.place h t b = .outOfRange shell → s.resolveBracketed shot b = s.report .outOfRange (.head h) t shell)))

/-- The pair search: the first candidate, in ascending time, that has a later one in the gate wins, with the first such; without any such
two there is no pair (R14). -/
def Obligations.PairSearchTakesFirst : Prop :=
  ∀ (k lo hi : Nat) (cs : List Nat),
    let inGate (i j : Nat) : Prop :=
      lo ≤ corrected k (cs.getD j 0 - cs.getD i 0) ∧ corrected k (cs.getD j 0 - cs.getD i 0) ≤ hi
    (findPair k lo hi cs = none ↔ ∀ i j, i < j → j < cs.length → ¬ inGate i j)
    ∧ (∀ p, findPair k lo hi cs = some p →
        ∃ i j, i < j ∧ j < cs.length ∧ inGate i j
          ∧ p = ⟨cs.getD i 0, cs.getD j 0, corrected k (cs.getD j 0 - cs.getD i 0), cs.drop (j + 1)⟩
          ∧ (∀ j', i < j' → j' < j → ¬ inGate i j')
          ∧ (∀ i' j', i' < i → i' < j' → j' < cs.length → ¬ inGate i' j'))

/-- The evaluation ladder (R4): LOW_ENERGY leaves the held temperature; a temperature of 0..1500 replaces it and any other reads as none
(R5, R6, R7); without one the outcome is NO_TEMPERATURE, with fewer than two candidates NO_ECHO, without a pair NO_PAIR (R12, R14). A
pair gives GOOD with the wall of R16 and R17 at the temperature clamped to 1280 (R8): from the first confirming echo if one lies within
the tolerance (R15), otherwise from the pair alone, and then the hot wall lies within the product's gate. Its figures: quotients to nearest,
ties away from zero (R22); velocity and shrink at index 32 those of point 32, and between points i and i + 1 those of point i moved by the
f fortieths of their difference (R9, R10); the curve's points from its three parts (R192); the gate in time, least and greatest within the
wall's (R11); the corrected separation (R13). A placed shot is evaluated
(R100): on a NO_PRODUCT or NO_GRADE shell it counts NO_PRODUCT and does nothing else (R2); otherwise from the report, the held temperature,
the product and the curve of the context and the head's correction as they stand (R3), the held temperature is written to the context
(R7), and the outcome, good or bad, is shifted into the head's history and its health read from the pattern (R18, R53, R54); a rejection
is counted as itself, and a good wall goes to the window of a head that is then USABLE, or counts WITHHELD of one that is SUSPECT (R19). -/
def Obligations.EvaluationOutcomes : Prop :=
  (∀ x : EvalInput,
    (x.energyLow = true → evaluate x = .lowEnergy ∧ evaluateHeld x = x.held)
    ∧ (x.energyLow = false → x.temp ≤ 1500 → evaluateHeld x = some x.temp)
    ∧ (x.energyLow = false → 1500 < x.temp → evaluateHeld x = x.held)
    ∧ (x.energyLow = false → evaluateHeld x = none → evaluate x = .noTemperature)
    ∧ ∀ temp, x.energyLow = false → evaluateHeld x = some temp →
      let v := velocityAt x.points (min 1280 temp)
      let shrink := shrinkAt x.points (min 1280 temp)
      let cs := (x.echoes.filter fun e => decide (x.product.ampMin ≤ e.amp)).map Echo.time
      let found := findPair x.k (gateLo x.product.wallLo v) (gateHi x.product.wallHi v) cs
      let off (p : EchoPair) (tm : Nat) : Int := (corrected x.k (tm - p.second) : Int) - p.sep
      (cs.length < 2 → evaluate x = .noEcho)
      ∧ (2 ≤ cs.length → found = none → evaluate x = .noPair)
      ∧ (∀ p, found = some p → (∀ tm ∈ p.rest, (x.product.repeatTol : Int) < |off p tm|) →
          evaluate x = .good (roundDiv (min 65535 (roundDiv (v * p.sep) 40000) * shrink) 65536)
          ∧ roundDiv (v * p.sep) 40000 ≤ x.product.wallHi
          ∧ (0 < v → x.product.wallLo ≤ roundDiv (v * p.sep) 40000))
      ∧ (∀ p tm before after, found = some p → p.rest = before ++ tm :: after → |off p tm| ≤ (x.product.repeatTol : Int) →
          (∀ tm' ∈ before, (x.product.repeatTol : Int) < |off p tm'|) →
          evaluate x = .good (roundDiv (min 65535 (roundDiv (v * corrected x.k (tm - p.first)) 80000) * shrink) 65536)))
  ∧ (∀ a b : Nat, 0 < b → RoundsTo a b (roundDiv a b)) ∧ (∀ k x : Nat, RoundsTo (x * k : Nat) 65536 (corrected k x))
  ∧ (∀ points : List GradePoint,
    let point (i : Nat) := points.getD i ⟨0, 0⟩
    (velocityAt points 1280 = (point 32).velocity ∧ shrinkAt points 1280 = (point 32).shrink)
    ∧ (∀ i f : Nat, i < 32 → f < 40 →
      (∃ q : Int, (velocityAt points (40 * i + f) : Int) = (point i).velocity + q
        ∧ RoundsTo (((point (i + 1)).velocity - (point i).velocity : Int) * f) 40 q)
      ∧ (∃ q : Int, (shrinkAt points (40 * i + f) : Int) = (point i).shrink + q
        ∧ RoundsTo (((point (i + 1)).shrink - (point i).shrink : Int) * f) 40 q)))
  ∧ (∀ (s : State) (curve : Fin 8) (n : Fin 3) (i : Fin 11) (part : GradePart),
    s.tst.grades[3 * curve.val + n.val]? = some (some part) →
    (s.curvePoints curve.val).getD (11 * n.val + i.val) ⟨0, 0⟩ = part[i])
  ∧ (∀ wall v : Nat, 0 < v →
    (wall * 40000 ≤ gateLo wall v * v ∧ ∀ n, wall * 40000 ≤ n * v → gateLo wall v ≤ n)
    ∧ (gateHi wall v * v ≤ wall * 40000 ∧ ∀ n, n * v ≤ wall * 40000 → n ≤ gateHi wall v))
  ∧ (∀ (s : State) (x : Shot) (b : Sample × Sample) (p : Placed), s.place x.head x.time b = .placed p →
    s.resolveBracketed x b = s.evaluateShot x p)
  ∧ (∀ (s : State) (x : Shot) (p : Placed) (c : ShellContext), s.ctx p.slot = some c →
    let counting (c : ShellContext) (f : Reasons → Reasons) : Option ShellContext :=
      some { c with summary := { c.summary with reasons := f c.summary.reasons } }
    let input : EvalInput :=
      ⟨x.echoes, x.temp, x.energyLow, c.heldTemp, (s.head x.head).k, s.productEntry c.product, s.curvePoints ((c.grade.getD 0).val)⟩
    let c' : ShellContext := { c with heldTemp := evaluateHeld input }
    let history (outcome : BitVec 4) := ((s.head x.head).history <<< 1) ||| outcome
    let usable (outcome : BitVec 4) := s.pattern.getLsbD (history outcome).toNat
    let recorded (outcome : BitVec 4) : State :=
      (s.setHead x.head { s.head x.head with history := history outcome, usable := usable outcome }).setCtx p.slot (some c')
    let rejected (f : Reasons → Reasons) : State := (recorded 0).setCtx p.slot (counting c' f)
    let s' := s.evaluateShot x p
    ((c.flags.noProduct = true ∨ c.flags.noGrade = true) →
      s' = s.setCtx p.slot (counting c fun r => { r with noProduct := min 65535 (r.noProduct + 1) }))
    ∧ (c.flags.noProduct = false → c.flags.noGrade = false →
      (evaluate input = .lowEnergy → s' = rejected fun r => { r with lowEnergy := min 65535 (r.lowEnergy + 1) })
      ∧ (evaluate input = .noTemperature → s' = rejected fun r => { r with noTemperature := min 65535 (r.noTemperature + 1) })
      ∧ (evaluate input = .noEcho → s' = rejected fun r => { r with noEcho := min 65535 (r.noEcho + 1) })
      ∧ (evaluate input = .noPair → s' = rejected fun r => { r with noPair := min 65535 (r.noPair + 1) })
      ∧ (∀ wall, evaluate input = .good wall →
        (usable 1 = true → s' = (recorded 1).acceptGood p wall)
        ∧ (usable 1 = false → s' = (recorded 1).setCtx p.slot (counting c' fun r => { r with withheld := min 65535 (r.withheld + 1) })))))

/-! ### The wall map, judgement and results -/

/-- A wall accumulated into a zone (R109): an empty zone takes it whole; a count below 65535 and the sum grow; a saturated count and its sum
are kept; the min with its x moves only strictly below, the max only strictly above. -/
def Obligations.ZoneAccumulates : Prop :=
  ∀ (wall x : Nat),
    accumulate none wall x = ⟨1, wall, wall, x, wall⟩
    ∧ (∀ z : Zone, 1 ≤ z.n → z.n ≤ 65534 →
        accumulate (some z) wall x = ⟨z.n + 1, z.sum + wall, if wall < z.min then wall else z.min,
          if wall < z.min then x else z.xMin, if z.max < wall then wall else z.max⟩)
    ∧ (∀ z : Zone, z.n = 65535 →
        accumulate (some z) wall x = ⟨z.n, z.sum, if wall < z.min then wall else z.min,
          if wall < z.min then x else z.xMin, if z.max < wall then wall else z.max⟩)

/-- A good shot of a USABLE head meets the window (R111): it is accumulated into the open record of its key; or is LATE below its shell's
close boundary (R112); or opens a record of the product's zones, all empty but its own, while fewer than twelve are open (R113). With twelve
open the victim is the lowest record of the older shell that has one (R114): the shot is refused WINDOW_FULL when the victim is its own
shell's and above it (R115), and else the victim closes EARLY_CLOSE and the record opens (R116). The one reason counted is the shot's own,
and nothing else changes (R110). A closing takes the record from the window, moves its shell's context past its index and offers its report
(R118). At the end of a pass each live context is checked whole, the older first (R85, R102): an ENTERING one that has travelled twice G becomes
MEASURING with GATE_B_MISSED (R82); of a MEASURING or TAILING one every record that the shell has travelled past by the hold distance
closes, lowest first (R119); a TAILING one whose tail has cleared the last head by the hold distance ends: its remaining records close,
lowest first, its shell report takes the reserved room and the slot becomes FREE (R122, R141, R143). The report counts the tail's indices
missing up to segment 1023 (R123). The judgement of a closed segment (R126 to R131): the zones valid by the product's minimum, SPARSE below
half the zones with the eccentricity then UNKNOWN, the least zone min and greatest zone max with the lowest sector that has them, the
eccentricity of the valid means, THIN and THICK against the signed thresholds, ECCENTRIC above the limit, EARLY_CLOSE as it was closed; and
the zone records of the report (R132). The field ready, by which the shell report claims an idle line, is log 26's. -/
def Obligations.ShotsMappedAndSegmentsJudged : Prop :=
  (∀ (s : State) (p : Placed) (wall : Nat) (c : ShellContext), s.ctx p.slot = some c → p.shell = c.shell → s.WindowBounded →
    let sectors := (s.productEntry c.product).sectors
    let opened : OpenSegment :=
      ⟨p.slot, p.shell, p.segment, sectors, (List.replicate sectors none).set p.sector (some ⟨1, wall, wall, p.x, wall⟩)⟩
    let reasons := c.summary.reasons
    let counting (x : Reasons) : Option ShellContext := some { c with summary := { c.summary with reasons := x } }
    let good := counting { reasons with good := min 65535 (reasons.good + 1) }
    let full := counting { reasons with windowFull := min 65535 (reasons.windowFull + 1) }
    let s' := s.acceptGood p wall
    ((∃ r ∈ s.wmb.window, r.shell = p.shell ∧ r.index = p.segment) →
      s' = ({ s with wmb := ⟨s.wmb.window.map fun r =>
          if r.shell = p.shell ∧ r.index = p.segment then
            { r with zones := r.zones.set p.sector (some (accumulate (r.zones.getD p.sector none) wall p.x)) }
          else r⟩ } : State).setCtx p.slot good)
    ∧ ((∀ r ∈ s.wmb.window, ¬ (r.shell = p.shell ∧ r.index = p.segment)) →
      (p.segment < c.boundary → s' = s.setCtx p.slot (counting { reasons with late := min 65535 (reasons.late + 1) }))
      ∧ (c.boundary ≤ p.segment → s.wmb.window.length < 12 →
        s' = ({ s with wmb := ⟨s.wmb.window ++ [opened]⟩ } : State).setCtx p.slot good)
      ∧ (∀ v cv, c.boundary ≤ p.segment → s.wmb.window.length = 12 → v ∈ s.wmb.window →
        s.ctx v.slot = some cv → cv.shell = v.shell → (∀ r ∈ s.wmb.window, r.shell = v.shell → v.index ≤ r.index) →
        (v.slot = s.mtr.older ∨ ∀ co, s.ctx s.mtr.older = some co → ∀ r ∈ s.wmb.window, r.shell ≠ co.shell) →
        (v.shell = p.shell → p.segment < v.index → s' = s.setCtx p.slot full)
        ∧ ((v.shell ≠ p.shell ∨ v.index < p.segment) →
          let closed := s.closeSegment v true
          s' = ({ closed with wmb := ⟨closed.wmb.window ++ [opened]⟩ } : State).modCtx p.slot fun c => { c with
            summary := { c.summary with reasons := { c.summary.reasons with good := min 65535 (c.summary.reasons.good + 1) } } }))))
  ∧ (∀ (s : State) (r : OpenSegment) (early : Bool) (c : ShellContext), s.ctx r.slot = some c →
    let report := judge (s.productEntry c.product) c.product.val r early
    s.closeSegment r early = ({ s.offerSegment report with
        wmb := ⟨s.wmb.window.filter fun x => decide (x.shell ≠ r.shell ∨ x.index ≠ r.index)⟩ } : State).setCtx r.slot
      (some (c.closed r.index report (!s.rqu.refuses))))
  ∧ (∀ (s : State) (c : ShellContext) (d : Int), s.WindowBounded →
    (c.flags.noProduct = true → s.naturalClose c d = s)
    ∧ (c.flags.noProduct = false → ∃ past : List OpenSegment,
        (∀ r, r ∈ past ↔ r ∈ s.wmb.window ∧ r.shell = c.shell
          ∧ (((r.index + 1) * (s.productEntry c.product).segLength + s.track.hold : Nat) : Int) ≤ d - s.pMax)
        ∧ past.Pairwise (fun a b => a.index < b.index)
        ∧ s.naturalClose c d = past.foldl (fun a r => a.closeSegment r false) s))
  ∧ (∀ (s : State) (i : Fin 2) (c : ShellContext), s.ctx i = some c → s.WindowBounded →
    ∃ (left : List OpenSegment) (last : ShellContext),
      (∀ r, r ∈ left ↔ r ∈ s.wmb.window ∧ r.shell = c.shell) ∧ left.Pairwise (fun a b => a.index < b.index)
      ∧ (let s1 := left.foldl (fun a r => a.closeSegment r false) s
        s1.ctx i = some last
        ∧ s.endShell i = ({ s1 with
            ready := s1.ready.or (some .results)
            rqu := { s1.rqu with
              entries := s1.rqu.entries ++ [.shell (shellReport (s.productEntry last.product) last)]
              reservations := s1.rqu.reservations - 1 } } : State).setCtx i none))
  ∧ (∀ (s : State) (enc : Count),
    s.endOfPass enc = (s.checkContext enc s.mtr.older).checkContext enc (if s.mtr.older = 0 then 1 else 0))
  ∧ (∀ (s : State) (enc : Count) (i : Fin 2), s.ctx i = none → s.checkContext enc i = s)
  ∧ (∀ (s : State) (enc : Count) (i : Fin 2) (c : ShellContext), s.ctx i = some c →
    let d := travel c enc c.scale
    (c.phase = .entering → ((2 * s.track.gateDist : Nat) : Int) ≤ travel c enc s.track.nominal →
      let c' := { c with phase := .measuring, flags := { c.flags with gateBMissed := true } }
      s.checkContext enc i = (s.setCtx i (some c')).naturalClose c' d)
    ∧ (c.phase = .entering → travel c enc s.track.nominal < ((2 * s.track.gateDist : Nat) : Int) → s.checkContext enc i = s)
    ∧ (c.phase = .measuring → s.checkContext enc i = s.naturalClose c d)
    ∧ (∀ l, c.phase = .tailing → c.length = some l →
      (((s.pMax + s.track.hold : Nat) : Int) ≤ d - l →
        s.checkContext enc i = ((s.naturalClose c d).modCtx i fun x => { x with phase := .closing }).endShell i)
      ∧ (d - l < ((s.pMax + s.track.hold : Nat) : Int) → s.checkContext enc i = s.naturalClose c d)))
  ∧ (∀ (p : Product) (c : ShellContext) (l : Nat), c.flags.noProduct = false → c.length = some l → 1 ≤ l →
    (shellReport p c).summary.missing = min 65535 (c.summary.missing + (min ((l - 1) / p.segLength) 1023 + 1 - c.boundary)))
  ∧ (∀ (p : Product) (product : Nat) (r : OpenSegment) (early : Bool),
    let j := judge p product r early
    let mean (z : Zone) : Nat := roundDiv z.sum z.n
    let valid (z : Zone) : Prop := some z ∈ r.zones ∧ p.minShots ≤ z.n
    (j.shell = r.shell ∧ j.index = r.index ∧ j.product = product ∧ j.sectors = r.sectors ∧ j.verdict.earlyClose = early)
    ∧ j.valid = r.zones.countP (fun z => z.any fun z => decide (p.minShots ≤ z.n))
    ∧ (j.verdict.sparse = true ↔ j.valid < r.sectors / 2)
    ∧ (j.verdict.sparse = true → j.ecc = none)
    ∧ (j.verdict.thin = true ↔ ∃ z, valid z ∧ (mean z : Int) < (p.nominalWall : Int) - p.lowerTol)
    ∧ (j.verdict.thick = true ↔ ∃ z, valid z ∧ p.nominalWall + p.upperTol < mean z)
    ∧ (∀ hi lo, j.verdict.sparse = false → valid hi → valid lo → (∀ z, valid z → mean lo ≤ mean z ∧ mean z ≤ mean hi) →
        j.ecc = some (if mean hi + mean lo = 0 then 0 else roundDiv (2000 * (mean hi - mean lo)) (mean hi + mean lo)))
    ∧ (j.verdict.eccentric = true ↔ ∃ e, j.ecc = some e ∧ p.eccLimit < e)
    ∧ (∀ n z, r.zones[n]? = some (some z) →
        (∀ m y, r.zones[m]? = some (some y) → z.min ≤ y.min ∧ (m < n → z.min < y.min)) →
        j.min = z.min ∧ j.minSector = n ∧ j.minX = z.xMin)
    ∧ (∀ n z, r.zones[n]? = some (some z) →
        (∀ m y, r.zones[m]? = some (some y) → y.max ≤ z.max ∧ (m < n → y.max < z.max)) → j.max = z.max ∧ j.maxSector = n)
    ∧ j.zones = r.zones.map (fun z => match z with | none => ⟨0, 0, 0, 0⟩ | some z => ⟨min 255 z.n, mean z, z.min, z.max⟩))

/-- A closing accounts for every index from the boundary to the closed one: each is missing, reported or lost, and exactly one of reported
and lost grows by one; the boundary becomes the next index (R117, R118, R138). The judged segment is folded into the summary: each of
EARLY_CLOSE, THIN, THICK and ECCENTRIC raises its count, saturating; the min wall is replaced by one strictly below it, the max wall and the
max eccentricity by one strictly above, each with its place, or taken when none was held; an UNKNOWN eccentricity is passed over (R133).
The shell report carries the context's figures and its summary, in which the OUT_OF_RANGE count alone of the ten is set: the indices beyond
1023, 0 without a product or a length (R134, R137). -/
def Obligations.ClosingAccountsForIndices : Prop :=
  (∀ (c : ShellContext) (index : Nat) (r : SegmentReport) (accepted : Bool), c.boundary ≤ index →
    c.summary.missing + (index - c.boundary) ≤ 65535 → c.summary.reported < 65535 → c.summary.lost < 65535 →
    let c' := c.closed index r accepted
    c'.boundary = index + 1
    ∧ c'.summary.missing = c.summary.missing + (index - c.boundary)
    ∧ c'.summary.reported = c.summary.reported + (if accepted = true then 1 else 0)
    ∧ c'.summary.lost = c.summary.lost + (if accepted = true then 0 else 1)
    ∧ c'.summary.reported + c'.summary.missing + c'.summary.lost
        = c.summary.reported + c.summary.missing + c.summary.lost + (c'.boundary - c.boundary)
    ∧ c' = { c with boundary := c'.boundary, summary := c'.summary } ∧ c'.summary.reasons = c.summary.reasons)
  ∧ (∀ (c : ShellContext) (index : Nat) (r : SegmentReport) (accepted : Bool),
    let x := c.summary
    let y := (c.closed index r accepted).summary
    let raised (flag : Bool) (n : Nat) : Nat := if flag = true then min 65535 (n + 1) else n
    y.earlyClosed = raised r.verdict.earlyClose x.earlyClosed ∧ y.thin = raised r.verdict.thin x.thin
    ∧ y.thick = raised r.verdict.thick x.thick ∧ y.eccentric = raised r.verdict.eccentric x.eccentric
    ∧ (x.minWall = none → y.minWall = some ⟨r.min, r.index, r.minSector, r.minX⟩)
    ∧ (∀ m, x.minWall = some m → y.minWall = if r.min < m.wall then some ⟨r.min, r.index, r.minSector, r.minX⟩ else some m)
    ∧ (x.maxWall = none → y.maxWall = some ⟨r.max, r.index⟩)
    ∧ (∀ m, x.maxWall = some m → y.maxWall = if m.value < r.max then some ⟨r.max, r.index⟩ else some m)
    ∧ (r.ecc = none → y.maxEcc = x.maxEcc)
    ∧ (∀ e, r.ecc = some e → (x.maxEcc = none → y.maxEcc = some ⟨e, r.index⟩)
      ∧ ∀ m, x.maxEcc = some m → y.maxEcc = if m.value < e then some ⟨e, r.index⟩ else some m))
  ∧ (∀ (p : Product) (c : ShellContext) (l : Nat), c.length = some l →
    let r := shellReport p c
    r.shell = c.shell ∧ r.flags = c.flags ∧ r.product = c.product.val ∧ r.grade = c.grade ∧ r.length = l ∧ r.scale = c.scale
    ∧ r.summary = { c.summary with
        missing := r.summary.missing
        reasons := { c.summary.reasons with outOfRange :=
          if c.flags.noProduct = true ∨ l = 0 then 0 else min 65535 ((l - 1) / p.segLength - 1023) } })

/-- RQU refuses an offered segment report while 62 are held or while entries and reservations equal 64, with no capture and no notice, and
inserts it at the tail otherwise, where it claims the upstream transmitter (R142, R157; the field that remembers it is the model's own,
log 26). -/
def Obligations.SegmentReportOffered : Prop :=
  ∀ (s : State) (r : SegmentReport), s.rqu.segments ≤ 62 → s.rqu.entries.length + s.rqu.reservations ≤ 64 →
    (s.rqu.segments = 62 → s.offerSegment r = s)
    ∧ (s.rqu.entries.length + s.rqu.reservations = 64 → s.offerSegment r = s)
    ∧ (s.rqu.segments ≠ 62 → s.rqu.entries.length + s.rqu.reservations ≠ 64 →
        s.offerSegment r =
          { s with rqu := { s.rqu with entries := s.rqu.entries ++ [.segment r] }, ready := s.ready.or (some .results) })

/-- The verdict of a shell report, decided as it is formed from its summary and the context's flags by the first row that applies; a
NO_PRODUCT shell has no limit bound, and the limit is otherwise the bound product's; a shell of length 0 has no missing index of its own
(R136). -/
def Obligations.ShellVerdictRows : Prop :=
  ∀ (p : Product) (c : ShellContext),
    let r := shellReport p c
    let thinOrThick := 0 < r.summary.thin ∨ 0 < r.summary.thick
    let eccentric := c.flags.noProduct = false ∧ 1 ≤ p.eccSegLimit ∧ p.eccSegLimit ≤ 1023 ∧ p.eccSegLimit ≤ r.summary.eccentric
    let unverified := 0 < r.summary.lost ∨ 0 < r.summary.missing ∨ c.flags.noProduct = true ∨ c.flags.noGrade = true
      ∨ c.flags.degradedHeads = true
    r.flags = c.flags
    ∧ (c.length = some 0 → c.summary.missing ≤ 65535 → r.summary.missing = c.summary.missing)
    ∧ (thinOrThick → r.verdict = .reject)
    ∧ (¬ thinOrThick → eccentric → r.verdict = .reject)
    ∧ (¬ thinOrThick → ¬ eccentric → unverified → r.verdict = .unverified)
    ∧ (¬ thinOrThick → ¬ eccentric → ¬ unverified → r.verdict = .accept)

/-! ### Laws that every step keeps -/

/-- The laws hold at reset. -/
def Obligations.LawsHoldAtReset : Prop :=
  State.reset.Capacities ∧ State.reset.HeadsAndLevel ∧ State.reset.Ownership ∧ State.reset.TalliesAccount

/-- Every step keeps the capacities: forward buffers 8 (R153), samples 8 in ascending order (R67), announcements 4 (R79), shots 60 and gate
items 4 (R92), open segments 12 with distinct keys (R107), and the room that RQU reserves for each live shell (R141). -/
def Obligations.StepKeepsCapacities : Prop :=
  ∀ s s' : State, s.Capacities → step s = .next s' → s'.Capacities

/-- Every step keeps each head's record lawful and the condition level at the value that its inputs give (R45, R48 to R51, R57). -/
def Obligations.StepKeepsHeadsAndLevel : Prop :=
  ∀ s s' : State, s.HeadsAndLevel → step s = .next s' → s'.HeadsAndLevel

/-- Every step keeps the contexts' laws, MORE only beside a HELD record, the station address below 254, and nothing waiting for an idle
transmitter of the line chain (R75, R77, R154, R157, R159, R176). -/
def Obligations.StepKeepsOwnership : Prop :=
  ∀ s s' : State, s.Ownership → step s = .next s' → s'.Ownership

/-- Every step keeps the books of the rounds: a tally's issued fires are its resolved ones and those outstanding (R43, R44). -/
def Obligations.StepKeepsTallies : Prop :=
  ∀ s s' : State, s.TalliesAccount → step s = .next s' → s'.TalliesAccount
end

