-- ==== Sys2Proof/Laws/Fields.lean ====
section
/-! SUPPORT. Fields of frames: a number written most significant byte first is read back (chapter 11, opening). -/

namespace Sys2Proof.Machine

@[simp] theorem byteOf_toNat (n : Nat) : (byteOf n).toNat = n % 256 := by
  simp [byteOf]

@[simp] theorem be16_length (n : Nat) : (be16 n).length = 2 := rfl
@[simp] theorem be32_length (n : Nat) : (be32 n).length = 4 := rfl

/-- A two-byte field holds every number below 65536. -/
theorem bytesToNat_be16 (n : Nat) (h : n < 65536) : bytesToNat (be16 n) = n := by
  simp [bytesToNat, be16]
  omega

/-- A four-byte field holds every number below 2^32. -/
theorem bytesToNat_be32 (n : Nat) (h : n < 4294967296) : bytesToNat (be32 n) = n := by
  simp [bytesToNat, be32]
  omega

/-- A line chain frame has seven bytes beside its payload (R200). -/
theorem lineBytes_length (f : LineFrame) : (lineBytes f).length = 7 + f.payload.length := by
  simp [lineBytes, lineBody]
  omega

/-- A head link frame has five bytes beside its payload (R200). -/
theorem headBytes_length (f : HeadFrame) : (headBytes f).length = 5 + f.payload.length := by
  simp [headBytes, headBody]
  omega

end Sys2Proof.Machine
end

