-- ==== Sys2Proof/Laws/State.lean ====
section
/-! SUPPORT. One lemma per field per block update, each true by unfolding the update once. -/

namespace Sys2Proof.Machine

/-! ### setTime -/

@[simp] theorem State.setTime_partTime (s : State) (x : PartTime) : (s.setTime x).partTime = x := rfl
@[simp] theorem State.setTime_rstHigh (s : State) (x : PartTime) : (s.setTime x).rstHigh = s.rstHigh := rfl
@[simp] theorem State.setTime_hlp (s : State) (x : PartTime) : (s.setTime x).hlp = s.hlp := rfl
@[simp] theorem State.setTime_fsc (s : State) (x : PartTime) : (s.setTime x).fsc = s.fsc := rfl
@[simp] theorem State.setTime_hcu (s : State) (x : PartTime) : (s.setTime x).hcu = s.hcu := rfl
@[simp] theorem State.setTime_mtr (s : State) (x : PartTime) : (s.setTime x).mtr = s.mtr := rfl
@[simp] theorem State.setTime_rsq (s : State) (x : PartTime) : (s.setTime x).rsq = s.rsq := rfl
@[simp] theorem State.setTime_wmb (s : State) (x : PartTime) : (s.setTime x).wmb = s.wmb := rfl
@[simp] theorem State.setTime_rqu (s : State) (x : PartTime) : (s.setTime x).rqu = s.rqu := rfl
@[simp] theorem State.setTime_lcp (s : State) (x : PartTime) : (s.setTime x).lcp = s.lcp := rfl
@[simp] theorem State.setTime_cmu (s : State) (x : PartTime) : (s.setTime x).cmu = s.cmu := rfl
@[simp] theorem State.setTime_tst (s : State) (x : PartTime) : (s.setTime x).tst = s.tst := rfl
@[simp] theorem State.setTime_freeCount (s : State) (x : PartTime) : (s.setTime x).freeCount = s.freeCount := rfl
@[simp] theorem State.setTime_ready (s : State) (x : PartTime) : (s.setTime x).ready = s.ready := rfl
@[simp] theorem State.setTime_pending (s : State) (x : PartTime) : (s.setTime x).pending = s.pending := rfl
@[simp] theorem State.setTime_setTime (s : State) (x y : PartTime) : (s.setTime x).setTime y = s.setTime y := rfl
@[simp] theorem State.setTime_same (s : State) : s.setTime s.partTime = s := rfl

/-! ### setRst -/

@[simp] theorem State.setRst_partTime (s : State) (x : Bool) : (s.setRst x).partTime = s.partTime := rfl
@[simp] theorem State.setRst_rstHigh (s : State) (x : Bool) : (s.setRst x).rstHigh = x := rfl
@[simp] theorem State.setRst_hlp (s : State) (x : Bool) : (s.setRst x).hlp = s.hlp := rfl
@[simp] theorem State.setRst_fsc (s : State) (x : Bool) : (s.setRst x).fsc = s.fsc := rfl
@[simp] theorem State.setRst_hcu (s : State) (x : Bool) : (s.setRst x).hcu = s.hcu := rfl
@[simp] theorem State.setRst_mtr (s : State) (x : Bool) : (s.setRst x).mtr = s.mtr := rfl
@[simp] theorem State.setRst_rsq (s : State) (x : Bool) : (s.setRst x).rsq = s.rsq := rfl
@[simp] theorem State.setRst_wmb (s : State) (x : Bool) : (s.setRst x).wmb = s.wmb := rfl
@[simp] theorem State.setRst_rqu (s : State) (x : Bool) : (s.setRst x).rqu = s.rqu := rfl
@[simp] theorem State.setRst_lcp (s : State) (x : Bool) : (s.setRst x).lcp = s.lcp := rfl
@[simp] theorem State.setRst_cmu (s : State) (x : Bool) : (s.setRst x).cmu = s.cmu := rfl
@[simp] theorem State.setRst_tst (s : State) (x : Bool) : (s.setRst x).tst = s.tst := rfl
@[simp] theorem State.setRst_freeCount (s : State) (x : Bool) : (s.setRst x).freeCount = s.freeCount := rfl
@[simp] theorem State.setRst_ready (s : State) (x : Bool) : (s.setRst x).ready = s.ready := rfl
@[simp] theorem State.setRst_pending (s : State) (x : Bool) : (s.setRst x).pending = s.pending := rfl
@[simp] theorem State.setRst_setRst (s : State) (x y : Bool) : (s.setRst x).setRst y = s.setRst y := rfl
@[simp] theorem State.setRst_same (s : State) : s.setRst s.rstHigh = s := rfl

/-! ### setHlp -/

@[simp] theorem State.setHlp_partTime (s : State) (x : Hlp) : (s.setHlp x).partTime = s.partTime := rfl
@[simp] theorem State.setHlp_rstHigh (s : State) (x : Hlp) : (s.setHlp x).rstHigh = s.rstHigh := rfl
@[simp] theorem State.setHlp_hlp (s : State) (x : Hlp) : (s.setHlp x).hlp = x := rfl
@[simp] theorem State.setHlp_fsc (s : State) (x : Hlp) : (s.setHlp x).fsc = s.fsc := rfl
@[simp] theorem State.setHlp_hcu (s : State) (x : Hlp) : (s.setHlp x).hcu = s.hcu := rfl
@[simp] theorem State.setHlp_mtr (s : State) (x : Hlp) : (s.setHlp x).mtr = s.mtr := rfl
@[simp] theorem State.setHlp_rsq (s : State) (x : Hlp) : (s.setHlp x).rsq = s.rsq := rfl
@[simp] theorem State.setHlp_wmb (s : State) (x : Hlp) : (s.setHlp x).wmb = s.wmb := rfl
@[simp] theorem State.setHlp_rqu (s : State) (x : Hlp) : (s.setHlp x).rqu = s.rqu := rfl
@[simp] theorem State.setHlp_lcp (s : State) (x : Hlp) : (s.setHlp x).lcp = s.lcp := rfl
@[simp] theorem State.setHlp_cmu (s : State) (x : Hlp) : (s.setHlp x).cmu = s.cmu := rfl
@[simp] theorem State.setHlp_tst (s : State) (x : Hlp) : (s.setHlp x).tst = s.tst := rfl
@[simp] theorem State.setHlp_freeCount (s : State) (x : Hlp) : (s.setHlp x).freeCount = s.freeCount := rfl
@[simp] theorem State.setHlp_ready (s : State) (x : Hlp) : (s.setHlp x).ready = s.ready := rfl
@[simp] theorem State.setHlp_pending (s : State) (x : Hlp) : (s.setHlp x).pending = s.pending := rfl
@[simp] theorem State.setHlp_setHlp (s : State) (x y : Hlp) : (s.setHlp x).setHlp y = s.setHlp y := rfl
@[simp] theorem State.setHlp_same (s : State) : s.setHlp s.hlp = s := rfl

/-! ### setFsc -/

@[simp] theorem State.setFsc_partTime (s : State) (x : Fsc) : (s.setFsc x).partTime = s.partTime := rfl
@[simp] theorem State.setFsc_rstHigh (s : State) (x : Fsc) : (s.setFsc x).rstHigh = s.rstHigh := rfl
@[simp] theorem State.setFsc_hlp (s : State) (x : Fsc) : (s.setFsc x).hlp = s.hlp := rfl
@[simp] theorem State.setFsc_fsc (s : State) (x : Fsc) : (s.setFsc x).fsc = x := rfl
@[simp] theorem State.setFsc_hcu (s : State) (x : Fsc) : (s.setFsc x).hcu = s.hcu := rfl
@[simp] theorem State.setFsc_mtr (s : State) (x : Fsc) : (s.setFsc x).mtr = s.mtr := rfl
@[simp] theorem State.setFsc_rsq (s : State) (x : Fsc) : (s.setFsc x).rsq = s.rsq := rfl
@[simp] theorem State.setFsc_wmb (s : State) (x : Fsc) : (s.setFsc x).wmb = s.wmb := rfl
@[simp] theorem State.setFsc_rqu (s : State) (x : Fsc) : (s.setFsc x).rqu = s.rqu := rfl
@[simp] theorem State.setFsc_lcp (s : State) (x : Fsc) : (s.setFsc x).lcp = s.lcp := rfl
@[simp] theorem State.setFsc_cmu (s : State) (x : Fsc) : (s.setFsc x).cmu = s.cmu := rfl
@[simp] theorem State.setFsc_tst (s : State) (x : Fsc) : (s.setFsc x).tst = s.tst := rfl
@[simp] theorem State.setFsc_freeCount (s : State) (x : Fsc) : (s.setFsc x).freeCount = s.freeCount := rfl
@[simp] theorem State.setFsc_ready (s : State) (x : Fsc) : (s.setFsc x).ready = s.ready := rfl
@[simp] theorem State.setFsc_pending (s : State) (x : Fsc) : (s.setFsc x).pending = s.pending := rfl
@[simp] theorem State.setFsc_setFsc (s : State) (x y : Fsc) : (s.setFsc x).setFsc y = s.setFsc y := rfl
@[simp] theorem State.setFsc_same (s : State) : s.setFsc s.fsc = s := rfl

/-! ### setHcu -/

@[simp] theorem State.setHcu_partTime (s : State) (x : Hcu) : (s.setHcu x).partTime = s.partTime := rfl
@[simp] theorem State.setHcu_rstHigh (s : State) (x : Hcu) : (s.setHcu x).rstHigh = s.rstHigh := rfl
@[simp] theorem State.setHcu_hlp (s : State) (x : Hcu) : (s.setHcu x).hlp = s.hlp := rfl
@[simp] theorem State.setHcu_fsc (s : State) (x : Hcu) : (s.setHcu x).fsc = s.fsc := rfl
@[simp] theorem State.setHcu_hcu (s : State) (x : Hcu) : (s.setHcu x).hcu = x := rfl
@[simp] theorem State.setHcu_mtr (s : State) (x : Hcu) : (s.setHcu x).mtr = s.mtr := rfl
@[simp] theorem State.setHcu_rsq (s : State) (x : Hcu) : (s.setHcu x).rsq = s.rsq := rfl
@[simp] theorem State.setHcu_wmb (s : State) (x : Hcu) : (s.setHcu x).wmb = s.wmb := rfl
@[simp] theorem State.setHcu_rqu (s : State) (x : Hcu) : (s.setHcu x).rqu = s.rqu := rfl
@[simp] theorem State.setHcu_lcp (s : State) (x : Hcu) : (s.setHcu x).lcp = s.lcp := rfl
@[simp] theorem State.setHcu_cmu (s : State) (x : Hcu) : (s.setHcu x).cmu = s.cmu := rfl
@[simp] theorem State.setHcu_tst (s : State) (x : Hcu) : (s.setHcu x).tst = s.tst := rfl
@[simp] theorem State.setHcu_freeCount (s : State) (x : Hcu) : (s.setHcu x).freeCount = s.freeCount := rfl
@[simp] theorem State.setHcu_ready (s : State) (x : Hcu) : (s.setHcu x).ready = s.ready := rfl
@[simp] theorem State.setHcu_pending (s : State) (x : Hcu) : (s.setHcu x).pending = s.pending := rfl
@[simp] theorem State.setHcu_setHcu (s : State) (x y : Hcu) : (s.setHcu x).setHcu y = s.setHcu y := rfl
@[simp] theorem State.setHcu_same (s : State) : s.setHcu s.hcu = s := rfl

/-! ### setMtr -/

@[simp] theorem State.setMtr_partTime (s : State) (x : Mtr) : (s.setMtr x).partTime = s.partTime := rfl
@[simp] theorem State.setMtr_rstHigh (s : State) (x : Mtr) : (s.setMtr x).rstHigh = s.rstHigh := rfl
@[simp] theorem State.setMtr_hlp (s : State) (x : Mtr) : (s.setMtr x).hlp = s.hlp := rfl
@[simp] theorem State.setMtr_fsc (s : State) (x : Mtr) : (s.setMtr x).fsc = s.fsc := rfl
@[simp] theorem State.setMtr_hcu (s : State) (x : Mtr) : (s.setMtr x).hcu = s.hcu := rfl
@[simp] theorem State.setMtr_mtr (s : State) (x : Mtr) : (s.setMtr x).mtr = x := rfl
@[simp] theorem State.setMtr_rsq (s : State) (x : Mtr) : (s.setMtr x).rsq = s.rsq := rfl
@[simp] theorem State.setMtr_wmb (s : State) (x : Mtr) : (s.setMtr x).wmb = s.wmb := rfl
@[simp] theorem State.setMtr_rqu (s : State) (x : Mtr) : (s.setMtr x).rqu = s.rqu := rfl
@[simp] theorem State.setMtr_lcp (s : State) (x : Mtr) : (s.setMtr x).lcp = s.lcp := rfl
@[simp] theorem State.setMtr_cmu (s : State) (x : Mtr) : (s.setMtr x).cmu = s.cmu := rfl
@[simp] theorem State.setMtr_tst (s : State) (x : Mtr) : (s.setMtr x).tst = s.tst := rfl
@[simp] theorem State.setMtr_freeCount (s : State) (x : Mtr) : (s.setMtr x).freeCount = s.freeCount := rfl
@[simp] theorem State.setMtr_ready (s : State) (x : Mtr) : (s.setMtr x).ready = s.ready := rfl
@[simp] theorem State.setMtr_pending (s : State) (x : Mtr) : (s.setMtr x).pending = s.pending := rfl
@[simp] theorem State.setMtr_setMtr (s : State) (x y : Mtr) : (s.setMtr x).setMtr y = s.setMtr y := rfl
@[simp] theorem State.setMtr_same (s : State) : s.setMtr s.mtr = s := rfl

/-! ### setRsq -/

@[simp] theorem State.setRsq_partTime (s : State) (x : Rsq) : (s.setRsq x).partTime = s.partTime := rfl
@[simp] theorem State.setRsq_rstHigh (s : State) (x : Rsq) : (s.setRsq x).rstHigh = s.rstHigh := rfl
@[simp] theorem State.setRsq_hlp (s : State) (x : Rsq) : (s.setRsq x).hlp = s.hlp := rfl
@[simp] theorem State.setRsq_fsc (s : State) (x : Rsq) : (s.setRsq x).fsc = s.fsc := rfl
@[simp] theorem State.setRsq_hcu (s : State) (x : Rsq) : (s.setRsq x).hcu = s.hcu := rfl
@[simp] theorem State.setRsq_mtr (s : State) (x : Rsq) : (s.setRsq x).mtr = s.mtr := rfl
@[simp] theorem State.setRsq_rsq (s : State) (x : Rsq) : (s.setRsq x).rsq = x := rfl
@[simp] theorem State.setRsq_wmb (s : State) (x : Rsq) : (s.setRsq x).wmb = s.wmb := rfl
@[simp] theorem State.setRsq_rqu (s : State) (x : Rsq) : (s.setRsq x).rqu = s.rqu := rfl
@[simp] theorem State.setRsq_lcp (s : State) (x : Rsq) : (s.setRsq x).lcp = s.lcp := rfl
@[simp] theorem State.setRsq_cmu (s : State) (x : Rsq) : (s.setRsq x).cmu = s.cmu := rfl
@[simp] theorem State.setRsq_tst (s : State) (x : Rsq) : (s.setRsq x).tst = s.tst := rfl
@[simp] theorem State.setRsq_freeCount (s : State) (x : Rsq) : (s.setRsq x).freeCount = s.freeCount := rfl
@[simp] theorem State.setRsq_ready (s : State) (x : Rsq) : (s.setRsq x).ready = s.ready := rfl
@[simp] theorem State.setRsq_pending (s : State) (x : Rsq) : (s.setRsq x).pending = s.pending := rfl
@[simp] theorem State.setRsq_setRsq (s : State) (x y : Rsq) : (s.setRsq x).setRsq y = s.setRsq y := rfl
@[simp] theorem State.setRsq_same (s : State) : s.setRsq s.rsq = s := rfl

/-! ### setWmb -/

@[simp] theorem State.setWmb_partTime (s : State) (x : Wmb) : (s.setWmb x).partTime = s.partTime := rfl
@[simp] theorem State.setWmb_rstHigh (s : State) (x : Wmb) : (s.setWmb x).rstHigh = s.rstHigh := rfl
@[simp] theorem State.setWmb_hlp (s : State) (x : Wmb) : (s.setWmb x).hlp = s.hlp := rfl
@[simp] theorem State.setWmb_fsc (s : State) (x : Wmb) : (s.setWmb x).fsc = s.fsc := rfl
@[simp] theorem State.setWmb_hcu (s : State) (x : Wmb) : (s.setWmb x).hcu = s.hcu := rfl
@[simp] theorem State.setWmb_mtr (s : State) (x : Wmb) : (s.setWmb x).mtr = s.mtr := rfl
@[simp] theorem State.setWmb_rsq (s : State) (x : Wmb) : (s.setWmb x).rsq = s.rsq := rfl
@[simp] theorem State.setWmb_wmb (s : State) (x : Wmb) : (s.setWmb x).wmb = x := rfl
@[simp] theorem State.setWmb_rqu (s : State) (x : Wmb) : (s.setWmb x).rqu = s.rqu := rfl
@[simp] theorem State.setWmb_lcp (s : State) (x : Wmb) : (s.setWmb x).lcp = s.lcp := rfl
@[simp] theorem State.setWmb_cmu (s : State) (x : Wmb) : (s.setWmb x).cmu = s.cmu := rfl
@[simp] theorem State.setWmb_tst (s : State) (x : Wmb) : (s.setWmb x).tst = s.tst := rfl
@[simp] theorem State.setWmb_freeCount (s : State) (x : Wmb) : (s.setWmb x).freeCount = s.freeCount := rfl
@[simp] theorem State.setWmb_ready (s : State) (x : Wmb) : (s.setWmb x).ready = s.ready := rfl
@[simp] theorem State.setWmb_pending (s : State) (x : Wmb) : (s.setWmb x).pending = s.pending := rfl
@[simp] theorem State.setWmb_setWmb (s : State) (x y : Wmb) : (s.setWmb x).setWmb y = s.setWmb y := rfl
@[simp] theorem State.setWmb_same (s : State) : s.setWmb s.wmb = s := rfl

/-! ### setRqu -/

@[simp] theorem State.setRqu_partTime (s : State) (x : Rqu) : (s.setRqu x).partTime = s.partTime := rfl
@[simp] theorem State.setRqu_rstHigh (s : State) (x : Rqu) : (s.setRqu x).rstHigh = s.rstHigh := rfl
@[simp] theorem State.setRqu_hlp (s : State) (x : Rqu) : (s.setRqu x).hlp = s.hlp := rfl
@[simp] theorem State.setRqu_fsc (s : State) (x : Rqu) : (s.setRqu x).fsc = s.fsc := rfl
@[simp] theorem State.setRqu_hcu (s : State) (x : Rqu) : (s.setRqu x).hcu = s.hcu := rfl
@[simp] theorem State.setRqu_mtr (s : State) (x : Rqu) : (s.setRqu x).mtr = s.mtr := rfl
@[simp] theorem State.setRqu_rsq (s : State) (x : Rqu) : (s.setRqu x).rsq = s.rsq := rfl
@[simp] theorem State.setRqu_wmb (s : State) (x : Rqu) : (s.setRqu x).wmb = s.wmb := rfl
@[simp] theorem State.setRqu_rqu (s : State) (x : Rqu) : (s.setRqu x).rqu = x := rfl
@[simp] theorem State.setRqu_lcp (s : State) (x : Rqu) : (s.setRqu x).lcp = s.lcp := rfl
@[simp] theorem State.setRqu_cmu (s : State) (x : Rqu) : (s.setRqu x).cmu = s.cmu := rfl
@[simp] theorem State.setRqu_tst (s : State) (x : Rqu) : (s.setRqu x).tst = s.tst := rfl
@[simp] theorem State.setRqu_freeCount (s : State) (x : Rqu) : (s.setRqu x).freeCount = s.freeCount := rfl
@[simp] theorem State.setRqu_ready (s : State) (x : Rqu) : (s.setRqu x).ready = s.ready := rfl
@[simp] theorem State.setRqu_pending (s : State) (x : Rqu) : (s.setRqu x).pending = s.pending := rfl
@[simp] theorem State.setRqu_setRqu (s : State) (x y : Rqu) : (s.setRqu x).setRqu y = s.setRqu y := rfl
@[simp] theorem State.setRqu_same (s : State) : s.setRqu s.rqu = s := rfl

/-! ### setLcp -/

@[simp] theorem State.setLcp_partTime (s : State) (x : Lcp) : (s.setLcp x).partTime = s.partTime := rfl
@[simp] theorem State.setLcp_rstHigh (s : State) (x : Lcp) : (s.setLcp x).rstHigh = s.rstHigh := rfl
@[simp] theorem State.setLcp_hlp (s : State) (x : Lcp) : (s.setLcp x).hlp = s.hlp := rfl
@[simp] theorem State.setLcp_fsc (s : State) (x : Lcp) : (s.setLcp x).fsc = s.fsc := rfl
@[simp] theorem State.setLcp_hcu (s : State) (x : Lcp) : (s.setLcp x).hcu = s.hcu := rfl
@[simp] theorem State.setLcp_mtr (s : State) (x : Lcp) : (s.setLcp x).mtr = s.mtr := rfl
@[simp] theorem State.setLcp_rsq (s : State) (x : Lcp) : (s.setLcp x).rsq = s.rsq := rfl
@[simp] theorem State.setLcp_wmb (s : State) (x : Lcp) : (s.setLcp x).wmb = s.wmb := rfl
@[simp] theorem State.setLcp_rqu (s : State) (x : Lcp) : (s.setLcp x).rqu = s.rqu := rfl
@[simp] theorem State.setLcp_lcp (s : State) (x : Lcp) : (s.setLcp x).lcp = x := rfl
@[simp] theorem State.setLcp_cmu (s : State) (x : Lcp) : (s.setLcp x).cmu = s.cmu := rfl
@[simp] theorem State.setLcp_tst (s : State) (x : Lcp) : (s.setLcp x).tst = s.tst := rfl
@[simp] theorem State.setLcp_freeCount (s : State) (x : Lcp) : (s.setLcp x).freeCount = s.freeCount := rfl
@[simp] theorem State.setLcp_ready (s : State) (x : Lcp) : (s.setLcp x).ready = s.ready := rfl
@[simp] theorem State.setLcp_pending (s : State) (x : Lcp) : (s.setLcp x).pending = s.pending := rfl
@[simp] theorem State.setLcp_setLcp (s : State) (x y : Lcp) : (s.setLcp x).setLcp y = s.setLcp y := rfl
@[simp] theorem State.setLcp_same (s : State) : s.setLcp s.lcp = s := rfl

/-! ### setCmu -/

@[simp] theorem State.setCmu_partTime (s : State) (x : Cmu) : (s.setCmu x).partTime = s.partTime := rfl
@[simp] theorem State.setCmu_rstHigh (s : State) (x : Cmu) : (s.setCmu x).rstHigh = s.rstHigh := rfl
@[simp] theorem State.setCmu_hlp (s : State) (x : Cmu) : (s.setCmu x).hlp = s.hlp := rfl
@[simp] theorem State.setCmu_fsc (s : State) (x : Cmu) : (s.setCmu x).fsc = s.fsc := rfl
@[simp] theorem State.setCmu_hcu (s : State) (x : Cmu) : (s.setCmu x).hcu = s.hcu := rfl
@[simp] theorem State.setCmu_mtr (s : State) (x : Cmu) : (s.setCmu x).mtr = s.mtr := rfl
@[simp] theorem State.setCmu_rsq (s : State) (x : Cmu) : (s.setCmu x).rsq = s.rsq := rfl
@[simp] theorem State.setCmu_wmb (s : State) (x : Cmu) : (s.setCmu x).wmb = s.wmb := rfl
@[simp] theorem State.setCmu_rqu (s : State) (x : Cmu) : (s.setCmu x).rqu = s.rqu := rfl
@[simp] theorem State.setCmu_lcp (s : State) (x : Cmu) : (s.setCmu x).lcp = s.lcp := rfl
@[simp] theorem State.setCmu_cmu (s : State) (x : Cmu) : (s.setCmu x).cmu = x := rfl
@[simp] theorem State.setCmu_tst (s : State) (x : Cmu) : (s.setCmu x).tst = s.tst := rfl
@[simp] theorem State.setCmu_freeCount (s : State) (x : Cmu) : (s.setCmu x).freeCount = s.freeCount := rfl
@[simp] theorem State.setCmu_ready (s : State) (x : Cmu) : (s.setCmu x).ready = s.ready := rfl
@[simp] theorem State.setCmu_pending (s : State) (x : Cmu) : (s.setCmu x).pending = s.pending := rfl
@[simp] theorem State.setCmu_setCmu (s : State) (x y : Cmu) : (s.setCmu x).setCmu y = s.setCmu y := rfl
@[simp] theorem State.setCmu_same (s : State) : s.setCmu s.cmu = s := rfl

/-! ### setTst -/

@[simp] theorem State.setTst_partTime (s : State) (x : Tst) : (s.setTst x).partTime = s.partTime := rfl
@[simp] theorem State.setTst_rstHigh (s : State) (x : Tst) : (s.setTst x).rstHigh = s.rstHigh := rfl
@[simp] theorem State.setTst_hlp (s : State) (x : Tst) : (s.setTst x).hlp = s.hlp := rfl
@[simp] theorem State.setTst_fsc (s : State) (x : Tst) : (s.setTst x).fsc = s.fsc := rfl
@[simp] theorem State.setTst_hcu (s : State) (x : Tst) : (s.setTst x).hcu = s.hcu := rfl
@[simp] theorem State.setTst_mtr (s : State) (x : Tst) : (s.setTst x).mtr = s.mtr := rfl
@[simp] theorem State.setTst_rsq (s : State) (x : Tst) : (s.setTst x).rsq = s.rsq := rfl
@[simp] theorem State.setTst_wmb (s : State) (x : Tst) : (s.setTst x).wmb = s.wmb := rfl
@[simp] theorem State.setTst_rqu (s : State) (x : Tst) : (s.setTst x).rqu = s.rqu := rfl
@[simp] theorem State.setTst_lcp (s : State) (x : Tst) : (s.setTst x).lcp = s.lcp := rfl
@[simp] theorem State.setTst_cmu (s : State) (x : Tst) : (s.setTst x).cmu = s.cmu := rfl
@[simp] theorem State.setTst_tst (s : State) (x : Tst) : (s.setTst x).tst = x := rfl
@[simp] theorem State.setTst_freeCount (s : State) (x : Tst) : (s.setTst x).freeCount = s.freeCount := rfl
@[simp] theorem State.setTst_ready (s : State) (x : Tst) : (s.setTst x).ready = s.ready := rfl
@[simp] theorem State.setTst_pending (s : State) (x : Tst) : (s.setTst x).pending = s.pending := rfl
@[simp] theorem State.setTst_setTst (s : State) (x y : Tst) : (s.setTst x).setTst y = s.setTst y := rfl
@[simp] theorem State.setTst_same (s : State) : s.setTst s.tst = s := rfl

/-! ### setFree -/

@[simp] theorem State.setFree_partTime (s : State) (x : Nat) : (s.setFree x).partTime = s.partTime := rfl
@[simp] theorem State.setFree_rstHigh (s : State) (x : Nat) : (s.setFree x).rstHigh = s.rstHigh := rfl
@[simp] theorem State.setFree_hlp (s : State) (x : Nat) : (s.setFree x).hlp = s.hlp := rfl
@[simp] theorem State.setFree_fsc (s : State) (x : Nat) : (s.setFree x).fsc = s.fsc := rfl
@[simp] theorem State.setFree_hcu (s : State) (x : Nat) : (s.setFree x).hcu = s.hcu := rfl
@[simp] theorem State.setFree_mtr (s : State) (x : Nat) : (s.setFree x).mtr = s.mtr := rfl
@[simp] theorem State.setFree_rsq (s : State) (x : Nat) : (s.setFree x).rsq = s.rsq := rfl
@[simp] theorem State.setFree_wmb (s : State) (x : Nat) : (s.setFree x).wmb = s.wmb := rfl
@[simp] theorem State.setFree_rqu (s : State) (x : Nat) : (s.setFree x).rqu = s.rqu := rfl
@[simp] theorem State.setFree_lcp (s : State) (x : Nat) : (s.setFree x).lcp = s.lcp := rfl
@[simp] theorem State.setFree_cmu (s : State) (x : Nat) : (s.setFree x).cmu = s.cmu := rfl
@[simp] theorem State.setFree_tst (s : State) (x : Nat) : (s.setFree x).tst = s.tst := rfl
@[simp] theorem State.setFree_freeCount (s : State) (x : Nat) : (s.setFree x).freeCount = x := rfl
@[simp] theorem State.setFree_ready (s : State) (x : Nat) : (s.setFree x).ready = s.ready := rfl
@[simp] theorem State.setFree_pending (s : State) (x : Nat) : (s.setFree x).pending = s.pending := rfl
@[simp] theorem State.setFree_setFree (s : State) (x y : Nat) : (s.setFree x).setFree y = s.setFree y := rfl
@[simp] theorem State.setFree_same (s : State) : s.setFree s.freeCount = s := rfl

/-! ### setReady -/

@[simp] theorem State.setReady_partTime (s : State) (x : Option Claimant) : (s.setReady x).partTime = s.partTime := rfl
@[simp] theorem State.setReady_rstHigh (s : State) (x : Option Claimant) : (s.setReady x).rstHigh = s.rstHigh := rfl
@[simp] theorem State.setReady_hlp (s : State) (x : Option Claimant) : (s.setReady x).hlp = s.hlp := rfl
@[simp] theorem State.setReady_fsc (s : State) (x : Option Claimant) : (s.setReady x).fsc = s.fsc := rfl
@[simp] theorem State.setReady_hcu (s : State) (x : Option Claimant) : (s.setReady x).hcu = s.hcu := rfl
@[simp] theorem State.setReady_mtr (s : State) (x : Option Claimant) : (s.setReady x).mtr = s.mtr := rfl
@[simp] theorem State.setReady_rsq (s : State) (x : Option Claimant) : (s.setReady x).rsq = s.rsq := rfl
@[simp] theorem State.setReady_wmb (s : State) (x : Option Claimant) : (s.setReady x).wmb = s.wmb := rfl
@[simp] theorem State.setReady_rqu (s : State) (x : Option Claimant) : (s.setReady x).rqu = s.rqu := rfl
@[simp] theorem State.setReady_lcp (s : State) (x : Option Claimant) : (s.setReady x).lcp = s.lcp := rfl
@[simp] theorem State.setReady_cmu (s : State) (x : Option Claimant) : (s.setReady x).cmu = s.cmu := rfl
@[simp] theorem State.setReady_tst (s : State) (x : Option Claimant) : (s.setReady x).tst = s.tst := rfl
@[simp] theorem State.setReady_freeCount (s : State) (x : Option Claimant) : (s.setReady x).freeCount = s.freeCount := rfl
@[simp] theorem State.setReady_ready (s : State) (x : Option Claimant) : (s.setReady x).ready = x := rfl
@[simp] theorem State.setReady_pending (s : State) (x : Option Claimant) : (s.setReady x).pending = s.pending := rfl
@[simp] theorem State.setReady_setReady (s : State) (x y : Option Claimant) : (s.setReady x).setReady y = s.setReady y := rfl
@[simp] theorem State.setReady_same (s : State) : s.setReady s.ready = s := rfl

/-! ### claim -/

@[simp] theorem State.claim_partTime (s : State) (c : Claimant) : (s.claim c).partTime = s.partTime := rfl
@[simp] theorem State.claim_rstHigh (s : State) (c : Claimant) : (s.claim c).rstHigh = s.rstHigh := rfl
@[simp] theorem State.claim_hlp (s : State) (c : Claimant) : (s.claim c).hlp = s.hlp := rfl
@[simp] theorem State.claim_fsc (s : State) (c : Claimant) : (s.claim c).fsc = s.fsc := rfl
@[simp] theorem State.claim_hcu (s : State) (c : Claimant) : (s.claim c).hcu = s.hcu := rfl
@[simp] theorem State.claim_mtr (s : State) (c : Claimant) : (s.claim c).mtr = s.mtr := rfl
@[simp] theorem State.claim_rsq (s : State) (c : Claimant) : (s.claim c).rsq = s.rsq := rfl
@[simp] theorem State.claim_wmb (s : State) (c : Claimant) : (s.claim c).wmb = s.wmb := rfl
@[simp] theorem State.claim_rqu (s : State) (c : Claimant) : (s.claim c).rqu = s.rqu := rfl
@[simp] theorem State.claim_lcp (s : State) (c : Claimant) : (s.claim c).lcp = s.lcp := rfl
@[simp] theorem State.claim_cmu (s : State) (c : Claimant) : (s.claim c).cmu = s.cmu := rfl
@[simp] theorem State.claim_tst (s : State) (c : Claimant) : (s.claim c).tst = s.tst := rfl
@[simp] theorem State.claim_freeCount (s : State) (c : Claimant) : (s.claim c).freeCount = s.freeCount := rfl
@[simp] theorem State.claim_ready (s : State) (c : Claimant) : (s.claim c).ready = s.ready.or (some c) := rfl
@[simp] theorem State.claim_pending (s : State) (c : Claimant) : (s.claim c).pending = s.pending := rfl

/-! ### setPending -/

@[simp] theorem State.setPending_partTime (s : State) (x : List Instr) : (s.setPending x).partTime = s.partTime := rfl
@[simp] theorem State.setPending_rstHigh (s : State) (x : List Instr) : (s.setPending x).rstHigh = s.rstHigh := rfl
@[simp] theorem State.setPending_hlp (s : State) (x : List Instr) : (s.setPending x).hlp = s.hlp := rfl
@[simp] theorem State.setPending_fsc (s : State) (x : List Instr) : (s.setPending x).fsc = s.fsc := rfl
@[simp] theorem State.setPending_hcu (s : State) (x : List Instr) : (s.setPending x).hcu = s.hcu := rfl
@[simp] theorem State.setPending_mtr (s : State) (x : List Instr) : (s.setPending x).mtr = s.mtr := rfl
@[simp] theorem State.setPending_rsq (s : State) (x : List Instr) : (s.setPending x).rsq = s.rsq := rfl
@[simp] theorem State.setPending_wmb (s : State) (x : List Instr) : (s.setPending x).wmb = s.wmb := rfl
@[simp] theorem State.setPending_rqu (s : State) (x : List Instr) : (s.setPending x).rqu = s.rqu := rfl
@[simp] theorem State.setPending_lcp (s : State) (x : List Instr) : (s.setPending x).lcp = s.lcp := rfl
@[simp] theorem State.setPending_cmu (s : State) (x : List Instr) : (s.setPending x).cmu = s.cmu := rfl
@[simp] theorem State.setPending_tst (s : State) (x : List Instr) : (s.setPending x).tst = s.tst := rfl
@[simp] theorem State.setPending_freeCount (s : State) (x : List Instr) : (s.setPending x).freeCount = s.freeCount := rfl
@[simp] theorem State.setPending_ready (s : State) (x : List Instr) : (s.setPending x).ready = s.ready := rfl
@[simp] theorem State.setPending_pending (s : State) (x : List Instr) : (s.setPending x).pending = x := rfl
@[simp] theorem State.setPending_setPending (s : State) (x y : List Instr) : (s.setPending x).setPending y = s.setPending y := rfl
@[simp] theorem State.setPending_same (s : State) : s.setPending s.pending = s := rfl

end Sys2Proof.Machine
end

