-- ==== Sys2Proof/Laws/Ops.lean ====
section
/-! SUPPORT. What the shared operations of Machine/Ops.lean and Machine/Flags.lean do: the records of heads and contexts, the notice set, the
capture record and the level. -/

namespace Sys2Proof.Machine

/-! ### Views that depend on one block alone -/

theorem State.head_of_hcu {s s' : State} (e : s'.hcu = s.hcu) (h : Fin 8) : s'.head h = s.head h := by
  simp only [State.head, e]

theorem State.fire_of_fsc {s s' : State} (e : s'.fsc = s.fsc) (h : Fin 8) : s'.fire h = s.fire h := by
  simp only [State.fire, e]

theorem State.ctx_of_mtr {s s' : State} (e : s'.mtr = s.mtr) (i : Fin 2) : s'.ctx i = s.ctx i := by
  simp only [State.ctx, e]

theorem State.headEntry_of_tst {s s' : State} (e : s'.tst = s.tst) (h : Fin 8) : s'.headEntry h = s.headEntry h := by
  simp only [State.headEntry, e]

theorem State.enabled_of_tst {s s' : State} (e : s'.tst = s.tst) (h : Fin 8) : s'.enabled h = s.enabled h := by
  simp only [State.enabled, State.headEntry_of_tst e]

/-! ### Heads -/

@[simp] theorem State.setHead_head (s : State) (h : Fin 8) (r : HeadRecord) : (s.setHead h r).head h = r := by
  simp [State.head, State.setHead]

theorem State.setHead_head_other (s : State) {h j : Fin 8} (r : HeadRecord) (n : j ≠ h) : (s.setHead h r).head j = s.head j := by
  have n' : h.val ≠ j.val := fun e => n (Fin.ext e.symm)
  simp [State.head, State.setHead, Vector.getElem_set_ne _ _ n']

theorem State.setHead_head_ite (s : State) (h j : Fin 8) (r : HeadRecord) :
    (s.setHead h r).head j = if j = h then r else s.head j := by
  by_cases e : j = h
  · subst e; simp
  · simp [e, State.setHead_head_other s r e]

@[simp] theorem State.setHead_request (s : State) (h : Fin 8) (r : HeadRecord) : (s.setHead h r).hcu.request = s.hcu.request := rfl
@[simp] theorem State.setHead_pointer (s : State) (h : Fin 8) (r : HeadRecord) : (s.setHead h r).hcu.pointer = s.hcu.pointer := rfl
@[simp] theorem State.setHead_timer (s : State) (h : Fin 8) (r : HeadRecord) : (s.setHead h r).hcu.timer = s.hcu.timer := rfl

/-! ### Outstanding-fire records -/

@[simp] theorem State.setFire_fire (s : State) (h : Fin 8) (r : FireRecord) : (s.setFire h r).fire h = r := by
  simp [State.fire, State.setFire]

theorem State.setFire_fire_other (s : State) {h j : Fin 8} (r : FireRecord) (n : j ≠ h) : (s.setFire h r).fire j = s.fire j := by
  have n' : h.val ≠ j.val := fun e => n (Fin.ext e.symm)
  simp [State.fire, State.setFire, Vector.getElem_set_ne _ _ n']

/-! ### Shell contexts -/

@[simp] theorem State.setCtx_ctx (s : State) (i : Fin 2) (c : Option ShellContext) : (s.setCtx i c).ctx i = c := by
  simp [State.ctx, State.setCtx]

theorem State.setCtx_ctx_other (s : State) {i j : Fin 2} (c : Option ShellContext) (n : j ≠ i) : (s.setCtx i c).ctx j = s.ctx j := by
  have n' : i.val ≠ j.val := fun e => n (Fin.ext e.symm)
  simp [State.ctx, State.setCtx, Vector.getElem_set_ne _ _ n']

theorem State.modCtx_ctx (s : State) (i j : Fin 2) (f : ShellContext → ShellContext) :
    (s.modCtx i f).ctx j = if j = i then (s.ctx i).map f else s.ctx j := by
  by_cases e : j = i
  · subst e; simp [State.modCtx]
  · simp [State.modCtx, e, State.setCtx_ctx_other s _ e]

theorem State.mapCtx_ctx (s : State) (f : ShellContext → ShellContext) (j : Fin 2) : (s.mapCtx f).ctx j = (s.ctx j).map f := by
  match j with
  | 0 => simp [State.mapCtx, State.modCtx_ctx]
  | 1 => simp [State.mapCtx, State.modCtx_ctx]

/-! ### The capture record (R173) -/

/-- An anomaly touches the capture record and the notice CAPTURE_HELD alone. -/
theorem State.report_eq (s : State) (kind : CaptureKind) (source : CaptureSource) (time : PartTime) (detail : Nat) :
    s.report kind source time detail = s.setCmu { s.cmu with more := true }
    ∨ s.report kind source time detail =
        (s.setCmu { s.cmu with capture := some ⟨kind, source, time, detail⟩ }).raiseCaptureHeld := by
  unfold State.report
  cases s.cmu.capture with
  | none => exact .inr rfl
  | some a => exact .inl rfl

/-! ### The level (R45) -/

/-- The recomputation leaves the level that its inputs give, and touches nothing but the level and LEVEL_CHANGE. -/
theorem State.recomputeLevel_eq (s : State) :
    (s.recomputeLevel = s ∧ s.fsc.level = s.levelOf)
    ∨ (s.recomputeLevel = (s.setFsc { s.fsc with level := s.levelOf }).raiseLevelChange ∧ s.fsc.level ≠ s.levelOf) := by
  unfold State.recomputeLevel
  by_cases e : s.levelOf = s.fsc.level
  · exact .inl ⟨if_pos e, e.symm⟩
  · exact .inr ⟨if_neg e, fun x => e x.symm⟩

/-- After the recomputation the level held is the one that the state gives. -/
theorem State.recomputeLevel_level (s : State) : s.recomputeLevel.fsc.level = s.recomputeLevel.levelOf := by
  rcases s.recomputeLevel_eq with ⟨e, l⟩ | ⟨e, _⟩
  · rw [e]; exact l
  · rw [e]; rfl

end Sys2Proof.Machine
end

