-- ==== Sys2Proof/Laws/HeadCondition.lean ====
section
/-! SUPPORT. What the operations of the Head Condition Unit do to a head's record, and what they leave alone (R50 to R54, R62). -/

namespace Sys2Proof.Machine

/-- What a head's completions never touch: everything but the heads, the request and pointer, the level, the notices and the contexts' flags. -/
structure CompletionFrame (s s' : State) : Prop where
  partTime : s'.partTime = s.partTime
  rstHigh  : s'.rstHigh = s.rstHigh
  hlp      : s'.hlp = s.hlp
  rsq      : s'.rsq = s.rsq
  wmb      : s'.wmb = s.wmb
  lcp      : s'.lcp = s.lcp
  cmu      : s'.cmu = s.cmu
  tst      : s'.tst = s.tst
  pending  : s'.pending = s.pending
  entries  : s'.rqu.entries = s.rqu.entries
  timer    : s'.hcu.timer = s.hcu.timer
  history  : s'.mtr.history = s.mtr.history
  records  : s'.fsc.records = s.fsc.records
  seqs     : s'.fsc.seqs = s.fsc.seqs
  state    : s'.fsc.state = s.fsc.state
  tallies  : s'.fsc.tallies = s.fsc.tallies

theorem CompletionFrame.refl (s : State) : CompletionFrame s s := by
  constructor <;> rfl

theorem CompletionFrame.trans {a b c : State} (x : CompletionFrame a b) (y : CompletionFrame b c) : CompletionFrame a c where
  partTime := y.partTime.trans x.partTime
  rstHigh := y.rstHigh.trans x.rstHigh
  hlp := y.hlp.trans x.hlp
  rsq := y.rsq.trans x.rsq
  wmb := y.wmb.trans x.wmb
  lcp := y.lcp.trans x.lcp
  cmu := y.cmu.trans x.cmu
  tst := y.tst.trans x.tst
  pending := y.pending.trans x.pending
  entries := y.entries.trans x.entries
  timer := y.timer.trans x.timer
  history := y.history.trans x.history
  records := y.records.trans x.records
  seqs := y.seqs.trans x.seqs
  state := y.state.trans x.state
  tallies := y.tallies.trans x.tallies

theorem CompletionFrame.setHead (s : State) (h : Fin 8) (r : HeadRecord) : CompletionFrame s (s.setHead h r) := by
  constructor <;> rfl

theorem CompletionFrame.recomputeLevel (s : State) : CompletionFrame s s.recomputeLevel := by
  rcases s.recomputeLevel_eq with ⟨e, _⟩ | ⟨e, _⟩ <;> rw [e]
  · exact refl s
  · constructor <;> rfl

/-- A head's state follows its miss count; the count itself and the other heads stay (R51, R52). -/
theorem CompletionFrame.judgeMiss (s : State) (h : Fin 8) : CompletionFrame s (s.judgeMiss h) := by
  unfold State.judgeMiss
  split
  · exact refl s
  · split
    · refine CompletionFrame.trans (b := ((s.setHead h { s.head h with state := .lost }).raiseHeadLost).degradeAll) ?_
        (recomputeLevel _)
      constructor <;> rfl
    · exact refl s
  · split
    · refine CompletionFrame.trans (b := (s.setHead h { s.head h with state := .active }).raiseHeadBack) ?_ (recomputeLevel _)
      constructor <;> rfl
    · exact refl s

/-- The recomputation of the level leaves the heads. -/
@[simp] theorem State.recomputeLevel_hcu (s : State) : s.recomputeLevel.hcu = s.hcu := by
  rcases s.recomputeLevel_eq with ⟨e, _⟩ | ⟨e, _⟩ <;> rw [e]
  rfl

/-- The state that follows a miss count (R51). -/
def followMiss (state : HeadState) (miss : Nat) : HeadState :=
  match state with
  | .disabled => .disabled
  | .active => if miss = 7 then .lost else .active
  | .lost => if miss = 0 then .active else .lost

/-- A record with its own state is itself. -/
theorem HeadRecord.state_eta (r : HeadRecord) {x : HeadState} (e : r.state = x) : { r with state := x } = r := by
  subst e; rfl

/-- The head's record after its state has followed the miss count: the state alone can change (R51). -/
theorem State.judgeMiss_head (s : State) (h j : Fin 8) :
    (s.judgeMiss h).head j =
      if j = h then { s.head h with state := followMiss (s.head h).state (s.head h).miss } else s.head j := by
  have same : ∀ x : HeadState, (s.head h).state = x →
      s.head j = if j = h then { s.head h with state := x } else s.head j := by
    intro x e
    split
    · rename_i ej; rw [ej, HeadRecord.state_eta _ e]
    · rfl
  unfold State.judgeMiss followMiss
  split
  · rename_i e; simp only [e]; exact same _ e
  · rename_i e
    simp only [e]
    split
    · rw [State.head_of_hcu (State.recomputeLevel_hcu _)]
      exact State.setHead_head_ite s h j _
    · exact same _ e
  · rename_i e
    simp only [e]
    split
    · rw [State.head_of_hcu (State.recomputeLevel_hcu _)]
      exact State.setHead_head_ite s h j _
    · exact same _ e

/-- A miss raises the head's count, saturating at 7, and no other head's (R50). -/
theorem State.missed_miss (s : State) (h : Fin 8) : ((s.missed h).head h).miss = min 7 ((s.head h).miss + 1) := by
  simp [State.missed, State.judgeMiss_head, satSucc]

/-- A reply lowers the head's count, not below 0, and no other head's (R50). -/
theorem State.replied_miss (s : State) (h : Fin 8) : ((s.replied h).head h).miss = (s.head h).miss - 1 := by
  simp [State.replied, State.judgeMiss_head]

theorem State.missed_other (s : State) {h j : Fin 8} (n : j ≠ h) : (s.missed h).head j = s.head j := by
  simp [State.missed, State.judgeMiss_head, n, State.setHead_head_other]

theorem State.replied_other (s : State) {h j : Fin 8} (n : j ≠ h) : (s.replied h).head j = s.head j := by
  simp [State.replied, State.judgeMiss_head, n, State.setHead_head_other]

/-- A recorded outcome shifts into the head's history and gives its health; no other head changes (R54). -/
theorem State.recordOutcome_head (s : State) (h j : Fin 8) (good : Bool) :
    (s.recordOutcome h good).head j =
      if j = h then
        { s.head h with
          history := shiftOutcome (s.head h).history good
          usable := s.healthOf (shiftOutcome (s.head h).history good) }
      else s.head j := by
  rw [State.recordOutcome, State.setHead_head_ite]

theorem CompletionFrame.recordOutcome (s : State) (h : Fin 8) (good : Bool) : CompletionFrame s (s.recordOutcome h good) :=
  setHead s h _

/-- The release of the request leaves the heads. -/
theorem State.releaseRequest_head (s : State) (h j : Fin 8) : (s.releaseRequest h).head j = s.head j := by
  unfold State.releaseRequest
  split <;> rfl

/-- A request that names the head is cleared; any other stays, with the pointer (R62 step 3). -/
theorem State.releaseRequest_request (s : State) (h : Fin 8) :
    (s.releaseRequest h).hcu.request = if s.hcu.request = some h then none else s.hcu.request := by
  unfold State.releaseRequest
  split <;> rfl

theorem CompletionFrame.releaseRequest (s : State) (h : Fin 8) : CompletionFrame s (s.releaseRequest h) := by
  unfold State.releaseRequest
  split
  · constructor <;> rfl
  · exact refl s

theorem CompletionFrame.completeCalibration (s : State) (h : Fin 8) (k : Nat) (cal : CalState) :
    CompletionFrame s (s.completeCalibration h k cal) := by
  have x : CompletionFrame s (((s.setHead h { s.head h with k := k, cal := cal }).recordOutcome h (cal != .failed)).releaseRequest h) :=
    ((setHead s h _).trans (recordOutcome _ h _)).trans (releaseRequest _ h)
  unfold State.completeCalibration
  dsimp only
  split
  · exact x.trans (by constructor <;> rfl)
  · exact x

end Sys2Proof.Machine
end

