-- ==== Sys2Proof/Laws/Judgement.lean ====
section
/-! SUPPORT. What the figures of a judged segment are (R127 to R130), each said once for its search. -/

namespace Sys2Proof.Machine

/-- The valid means are the means of the zones with at least the least number of shots (R127). -/
theorem mem_validMeans (k : Nat) (zones : List (Option Zone)) (m : Nat) :
    m ∈ validMeans k zones ↔ ∃ z, some z ∈ zones ∧ k ≤ z.n ∧ zoneMean z = m := by
  unfold validMeans
  rw [List.mem_filterMap]
  constructor
  · rintro ⟨_ | z, mem, e⟩
    · simp at e
    · simp only [Option.ite_none_right_eq_some, Option.some.injEq] at e
      exact ⟨z, mem, e.1, e.2⟩
  · rintro ⟨z, a, b, c⟩
    exact ⟨some z, a, by simp [b, c]⟩

/-- There are as many valid means as valid zones (R127). -/
theorem length_validMeans (k : Nat) (zones : List (Option Zone)) :
    (validMeans k zones).length = zones.countP fun z => z.any fun z => decide (k ≤ z.n) := by
  induction zones with
  | nil => rfl
  | cons a l ih =>
    unfold validMeans at *
    cases a with
    | none => simpa using ih
    | some z => by_cases h : k ≤ z.n <;> simpa [h] using ih

/-- A member that no other exceeds is the greatest. -/
theorem greatest_eq (xs : List Nat) (v : Nat) (mem : v ∈ xs) (top : ∀ x ∈ xs, x ≤ v) : greatest xs = v := by
  have key : ∀ (xs : List Nat) (a : Nat), v = a ∨ v ∈ xs → (∀ x ∈ xs, x ≤ v) → a ≤ v → xs.foldl max a = v := by
    intro xs
    induction xs with
    | nil => intro a h _ _; simpa [eq_comm] using h
    | cons x l ih =>
      intro a h1 h2 h3
      have := h2 x (by simp)
      refine ih _ ?_ (fun y hy => h2 y (by simp [hy])) (by omega)
      rcases h1 with h | h
      · left; omega
      · rcases List.mem_cons.1 h with h | h
        · left; omega
        · exact .inr h
  exact key xs 0 (.inr mem) top (Nat.zero_le _)

/-- A member that exceeds no other is the least. -/
theorem least_eq (xs : List Nat) (v : Nat) (mem : v ∈ xs) (low : ∀ x ∈ xs, v ≤ x) : least xs = v := by
  have key : ∀ (xs : List Nat) (a : Nat), v = a ∨ v ∈ xs → (∀ x ∈ xs, v ≤ x) → v ≤ a → xs.foldl min a = v := by
    intro xs
    induction xs with
    | nil => intro a h _ _; simpa [eq_comm] using h
    | cons x l ih =>
      intro a h1 h2 h3
      have := h2 x (by simp)
      refine ih _ ?_ (fun y hy => h2 y (by simp [hy])) (by omega)
      rcases h1 with h | h
      · left; omega
      · rcases List.mem_cons.1 h with h | h
        · left; omega
        · exact .inr h
  cases xs with
  | nil => simp at mem
  | cons x l => exact key l x (by simpa using mem) (fun y hy => low y (by simp [hy])) (low x (by simp))

/-- The first zone whose min no other is below gives the segment min (R129). -/
theorem segmentMin_eq (index : Nat) (zones : List (Option Zone)) (sector n : Nat) (held : Option MinWall) (z : Zone)
    (hz : zones[n]? = some (some z))
    (low : ∀ m y, zones[m]? = some (some y) → z.min ≤ y.min ∧ (m < n → z.min < y.min)) (hh : ∀ h, held = some h → z.min < h.wall) :
    segmentMin index sector held zones = some ⟨z.min, index, sector + n, z.xMin⟩ := by
  have keep : ∀ (zones : List (Option Zone)) (sector : Nat) (h : MinWall), (∀ y, some y ∈ zones → h.wall ≤ y.min) →
      segmentMin index sector (some h) zones = some h := by
    intro zones
    induction zones with
    | nil => intros; rfl
    | cons a l ih =>
      intro sector h hy
      cases a with
      | none => exact ih _ _ fun y hm => hy y (List.mem_cons_of_mem _ hm)
      | some a =>
        have := hy a (by simp)
        simp only [segmentMin]
        rw [if_neg (by omega)]
        exact ih _ _ fun y hm => hy y (List.mem_cons_of_mem _ hm)
  induction zones generalizing sector n held with
  | nil => simp at hz
  | cons a l ih =>
    cases n with
    | zero =>
      have hz : a = some z := by simpa using hz
      subst hz
      have hl : ∀ y, some y ∈ l → z.min ≤ y.min := by
        intro y hy
        obtain ⟨m, hm⟩ := List.mem_iff_getElem?.1 hy
        exact (low (m + 1) y (by simpa using hm)).1
      cases held with
      | none => exact keep _ _ _ hl
      | some h => simp only [segmentMin]; rw [if_pos (hh h rfl)]; exact keep _ _ _ hl
    | succ n =>
      have hz' : l[n]? = some (some z) := by simpa using hz
      have low' : ∀ m y, l[m]? = some (some y) → z.min ≤ y.min ∧ (m < n → z.min < y.min) := fun m y e =>
        have := low (m + 1) y (by simpa using e)
        ⟨this.1, fun q => this.2 (by omega)⟩
      have e : sector + (n + 1) = sector + 1 + n := by omega
      rw [e]
      cases a with
      | none => exact ih _ _ _ hz' low' hh
      | some a =>
        have first : ∀ h : MinWall, some ⟨a.min, index, sector, a.xMin⟩ = some h → z.min < h.wall := by
          rintro _ ⟨⟩
          exact (low 0 a (by simp)).2 (by omega)
        cases held with
        | none => exact ih _ _ _ hz' low' first
        | some h =>
          simp only [segmentMin]
          split
          · exact ih _ _ _ hz' low' first
          · exact ih _ _ _ hz' low' hh

/-- The first zone whose max no other exceeds gives the segment max (R129). -/
theorem segmentMax_eq (zones : List (Option Zone)) (sector n : Nat) (held : Option (Nat × Nat)) (z : Zone) (hz : zones[n]? = some (some z))
    (top : ∀ m y, zones[m]? = some (some y) → y.max ≤ z.max ∧ (m < n → y.max < z.max)) (hh : ∀ h, held = some h → h.1 < z.max) :
    segmentMax sector held zones = some (z.max, sector + n) := by
  have keep : ∀ (zones : List (Option Zone)) (sector : Nat) (h : Nat × Nat), (∀ y, some y ∈ zones → y.max ≤ h.1) →
      segmentMax sector (some h) zones = some h := by
    intro zones
    induction zones with
    | nil => intros; rfl
    | cons a l ih =>
      intro sector h hy
      cases a with
      | none => exact ih _ _ fun y hm => hy y (List.mem_cons_of_mem _ hm)
      | some a =>
        have := hy a (by simp)
        simp only [segmentMax]
        rw [if_neg (by omega)]
        exact ih _ _ fun y hm => hy y (List.mem_cons_of_mem _ hm)
  induction zones generalizing sector n held with
  | nil => simp at hz
  | cons a l ih =>
    cases n with
    | zero =>
      have hz : a = some z := by simpa using hz
      subst hz
      have hl : ∀ y, some y ∈ l → y.max ≤ z.max := by
        intro y hy
        obtain ⟨m, hm⟩ := List.mem_iff_getElem?.1 hy
        exact (top (m + 1) y (by simpa using hm)).1
      cases held with
      | none => exact keep _ _ _ hl
      | some h => simp only [segmentMax]; rw [if_pos (hh h rfl)]; exact keep _ _ _ hl
    | succ n =>
      have hz' : l[n]? = some (some z) := by simpa using hz
      have top' : ∀ m y, l[m]? = some (some y) → y.max ≤ z.max ∧ (m < n → y.max < z.max) := fun m y e =>
        have := top (m + 1) y (by simpa using e)
        ⟨this.1, fun q => this.2 (by omega)⟩
      have e : sector + (n + 1) = sector + 1 + n := by omega
      rw [e]
      cases a with
      | none => exact ih _ _ _ hz' top' hh
      | some a =>
        have first : ∀ h : Nat × Nat, some (a.max, sector) = some h → h.1 < z.max := by
          rintro _ ⟨⟩
          exact (top 0 a (by simp)).2 (by omega)
        cases held with
        | none => exact ih _ _ _ hz' top' first
        | some h =>
          simp only [segmentMax]
          split
          · exact ih _ _ _ hz' top' first
          · exact ih _ _ _ hz' top' hh

end Sys2Proof.Machine
end

