-- ==== Sys2Proof/Laws/LineChain.lean ====
section
/-! SUPPORT. The line chain by cases: what can become of an arriving frame (R150 to R153, R162, R163), what the arbiter can choose, and
what an idle transmitter takes at the end of a step (R157, R159). -/

namespace Sys2Proof.Machine

/-- A frame for another station, received, is entered downstream (R150). -/
theorem State.upstreamArrival_forward (s : State) (t : PartTime) (f : LineFrame) (cut : Cut) (d : s.lcp.upDiscarding = false)
    (n : f.dest ≠ s.lcp.address) (b : f.dest ≠ broadcast) : s.upstreamArrival t f cut = s.enterDown t f := by
  simp [State.upstreamArrival, d, n, b]

/-- A frame for this station, received, is consumed (R150). -/
theorem State.upstreamArrival_consume (s : State) (t : PartTime) (f : LineFrame) (cut : Cut) (d : s.lcp.upDiscarding = false)
    (n : f.dest = s.lcp.address) (b : f.dest ≠ broadcast) : s.upstreamArrival t f cut = s.consume t f cut := by
  unfold State.upstreamArrival
  rw [if_neg (by simp [d]), if_neg b, if_pos n]

/-- A command frame consumed while the slot is empty and no restart is pending is run, and answered (R162, R165). -/
theorem State.consume_command (s : State) (t : PartTime) (f : LineFrame) (cut : Cut) (k : f.kind = kindCommand)
    (slot : s.lcp.slot = none) (idle : s.cmu.state = .idle) (b : f.dest ≠ broadcast) :
    s.consume t f cut = (s.runCommand t f cut).answered f := by
  simp [State.consume, k, State.takeCommand, State.commandBusy, slot, idle, b]

/-- A command consumed while the answer slot is full or a restart is pending is dropped and captured (R163). -/
theorem State.consume_overrun (s : State) (t : PartTime) (f : LineFrame) (cut : Cut) (k : f.kind = kindCommand)
    (busy : s.commandBusy = true) : s.consume t f cut = s.report .commandOverrun .upstream t (overrunDetail f) := by
  simp [State.consume, k, State.takeCommand, busy]

/-- A broadcast's copy is entered downstream, and the frame is then consumed (R150). -/
theorem State.upstreamArrival_broadcast (s : State) (t : PartTime) (f : LineFrame) (cut : Cut) (d : s.lcp.upDiscarding = false)
    (b : f.dest = broadcast) : s.upstreamArrival t f cut = (s.enterDown t f).consume t f cut := by
  unfold State.upstreamArrival
  rw [if_neg (by simp [d]), if_pos b]

/-! ### Forward buffers (R153, R159) -/

/-- The downstream buffer with a frame more, whose head a waiting transmitter takes (R153, R159). -/
theorem State.enterDown_room (s : State) (t : PartTime) (f : LineFrame) (room : s.lcp.down.length < 8) :
    s.enterDown t f = (s.setLcp { s.lcp with down := s.lcp.down ++ [f] }).takeDown := by
  unfold State.enterDown
  rw [if_neg (by omega)]

/-- A busy downstream transmitter takes nothing. -/
theorem State.takeDown_busy (s : State) {g : LineFrame} (e : s.lcp.downTx = some g) : s.takeDown = s := by
  simp [State.takeDown, e]

/-- An idle downstream transmitter takes the head of its buffer (R159). -/
theorem State.takeDown_idle (s : State) {f : LineFrame} {rest : List LineFrame} (e : s.lcp.downTx = none) (h : s.lcp.down = f :: rest) :
    s.takeDown = s.setLcp { s.lcp with down := rest, downTx := some f } := by
  simp [State.takeDown, State.downstreamFree, e, h]

/-- The upstream buffer with a frame more, which claims the upstream transmitter (R153, R157). -/
theorem State.enterUp_room (s : State) (t : PartTime) (f : LineFrame) (room : s.lcp.up.length < 8) :
    s.enterUp t f = (s.setLcp { s.lcp with up := s.lcp.up ++ [f] }).claim .forwarded := by
  unfold State.enterUp
  rw [if_neg (by omega)]

/-! ### The arbiter (R157) -/

/-- The result queue's turn takes its head, when it has one. -/
theorem State.chooseResult_cases (s : State) :
    (∃ r rest, s.rqu.entries = r :: rest ∧ s.chooseResult = s.sendResult r rest) ∨ (s.rqu.entries = [] ∧ s.chooseResult = s) := by
  unfold State.chooseResult
  cases h : s.rqu.entries with
  | nil => exact .inr ⟨rfl, rfl⟩
  | cons r rest => exact .inl ⟨r, rest, rfl, rfl⟩

/-- The arbiter's choice, row by row (R157). -/
theorem State.arbitrate_cases (s : State) :
    (∃ f, s.lcp.slot = some f ∧ s.arbitrate = s.sendAnswer f)
    ∨ (s.lcp.slot = none ∧ s.rqu.notices.any = true ∧ s.arbitrate = s.sendNotice)
    ∨ (s.lcp.slot = none ∧ s.rqu.notices.any = false
      ∧ ∃ f rest, s.lcp.up = f :: rest ∧ s.forwardAllowed = true ∧ s.arbitrate = s.sendForward f rest)
    ∨ (s.lcp.slot = none ∧ s.rqu.notices.any = false
      ∧ ∃ r rest, s.rqu.entries = r :: rest ∧ (s.lcp.up = [] ∨ s.forwardAllowed = false) ∧ s.arbitrate = s.sendResult r rest)
    ∨ (s.lcp.slot = none ∧ s.rqu.notices.any = false ∧ s.lcp.up = [] ∧ s.rqu.entries = [] ∧ s.arbitrate = s) := by
  unfold State.arbitrate
  cases hs : s.lcp.slot with
  | some f => exact .inl ⟨f, rfl, rfl⟩
  | none =>
    right
    cases hn : s.rqu.notices.any with
    | true => exact .inl ⟨rfl, rfl, rfl⟩
    | false =>
      right
      cases hu : s.lcp.up with
      | nil =>
        right
        rcases s.chooseResult_cases with ⟨r, rest, e, c⟩ | ⟨e, c⟩
        · exact .inl ⟨rfl, rfl, r, rest, e, .inl rfl, by simpa using c⟩
        · exact .inr ⟨rfl, rfl, rfl, e, by simpa using c⟩
      | cons f rest =>
        cases ha : s.forwardAllowed with
        | true => exact .inl ⟨rfl, rfl, f, rest, rfl, rfl, by simp⟩
        | false =>
          right
          rcases s.chooseResult_cases with ⟨r, rest', e, c⟩ | ⟨e, _⟩
          · exact .inl ⟨rfl, rfl, r, rest', e, .inr rfl, by simpa using c⟩
          · simp [State.forwardAllowed, e] at ha

/-- What a choice of the upstream transmitter leaves alone: all but LCP, the entries, notices and tag of RQU, and the progress of a RESTART
answer. -/
structure ChoiceFrame (s s' : State) : Prop where
  partTime     : s'.partTime = s.partTime
  rstHigh      : s'.rstHigh = s.rstHigh
  hlp          : s'.hlp = s.hlp
  fsc          : s'.fsc = s.fsc
  hcu          : s'.hcu = s.hcu
  mtr          : s'.mtr = s.mtr
  rsq          : s'.rsq = s.rsq
  wmb          : s'.wmb = s.wmb
  tst          : s'.tst = s.tst
  freeCount    : s'.freeCount = s.freeCount
  ready        : s'.ready = s.ready
  pending      : s'.pending = s.pending
  reservations : s'.rqu.reservations = s.rqu.reservations
  address      : s'.lcp.address = s.lcp.address
  down         : s'.lcp.down = s.lcp.down
  downTx       : s'.lcp.downTx = s.lcp.downTx
  upDiscarding : s'.lcp.upDiscarding = s.lcp.upDiscarding
  downDiscarding : s'.lcp.downDiscarding = s.lcp.downDiscarding
  capture      : s'.cmu.capture = s.cmu.capture
  more         : s'.cmu.more = s.cmu.more
  scratch0     : s'.cmu.scratch0 = s.cmu.scratch0
  scratch1     : s'.cmu.scratch1 = s.cmu.scratch1

theorem ChoiceFrame.refl (s : State) : ChoiceFrame s s := by
  constructor <;> rfl

theorem ChoiceFrame.sendAnswer (s : State) (f : LineFrame) : ChoiceFrame s (s.sendAnswer f) := by
  unfold State.sendAnswer
  dsimp only
  split <;> constructor <;> rfl

theorem ChoiceFrame.arbitrate (s : State) : ChoiceFrame s s.arbitrate := by
  rcases s.arbitrate_cases with ⟨f, _, e⟩ | ⟨_, _, e⟩ | ⟨_, _, f, rest, _, _, e⟩ | ⟨_, _, r, rest, _, _, e⟩ | ⟨_, _, _, _, e⟩
  · rw [e]; exact sendAnswer s f
  all_goals rw [e]; constructor <;> rfl

/-! ### The end of a step (R157) -/

/-- While the transmitter is busy, or nothing became ready, a step ends as its effects leave it. -/
theorem State.settled_same (s : State) (h : s.ready = none ∨ s.lcp.upTx ≠ none) : s.settled = s := by
  unfold State.settled
  cases hr : s.ready with
  | none => rfl
  | some c =>
    cases hu : s.lcp.upTx with
    | none => simp_all
    | some f => rfl

/-- An idle transmitter takes the claimant that became ready first (R157). -/
theorem State.settled_idle (s : State) {c : Claimant} (r : s.ready = some c) (u : s.lcp.upTx = none) : s.settled = s.chooseFirst c := by
  simp [State.settled, r, u]

/-- The first claimant is chosen while it waits, and the rows decide when it does not. -/
theorem State.chooseFirst_cases (s : State) (c : Claimant) :
    s.chooseFirst c = s.arbitrate
    ∨ (c = .notices ∧ s.rqu.notices.any = true ∧ s.chooseFirst c = s.sendNotice)
    ∨ (c = .forwarded ∧ ∃ f rest, s.lcp.up = f :: rest ∧ s.chooseFirst c = s.sendForward f rest)
    ∨ (c = .results ∧ ∃ r rest, s.rqu.entries = r :: rest ∧ s.chooseFirst c = s.sendResult r rest) := by
  cases c with
  | answer => exact .inl rfl
  | notices =>
    cases h : s.rqu.notices.any with
    | true => exact .inr (.inl ⟨rfl, rfl, by simp [State.chooseFirst, h]⟩)
    | false => exact .inl (by simp [State.chooseFirst, h])
  | forwarded =>
    cases h : s.lcp.up with
    | nil => exact .inl (by simp [State.chooseFirst, h])
    | cons f rest => exact .inr (.inr (.inl ⟨rfl, f, rest, rfl, by simp [State.chooseFirst, h]⟩))
  | results =>
    cases h : s.rqu.entries with
    | nil => exact .inl (by simp [State.chooseFirst, h])
    | cons r rest => exact .inr (.inr (.inr ⟨rfl, r, rest, rfl, by simp [State.chooseFirst, h]⟩))

theorem ChoiceFrame.settled (s : State) : ChoiceFrame s s.settled := by
  unfold State.settled
  split
  · exact refl s
  · rename_i c _
    split
    · exact refl s
    · rcases s.chooseFirst_cases c with e | ⟨_, _, e⟩ | ⟨_, f, rest, _, e⟩ | ⟨_, r, rest, _, e⟩ <;> rw [e]
      · exact arbitrate s
      all_goals constructor <;> rfl

/-- A step leaves the memory of what became ready first as it found it. -/
@[simp] theorem whole_ready (s : State) (f : State → State) : (whole s f).ready = s.ready := rfl

end Sys2Proof.Machine
end

