-- ==== Sys2Proof/WellFormed.lean ====
section
/-! DEFINITION. Which commands the links can carry: the checks of a command's operands that the frame formats impose (chapter 11). A
command's meaning does not depend on them (log 11): the part decides by the bytes. -/

namespace Sys2Proof

open Machine

/-- A payload fits a frame (R200). -/
def payloadFits (p : Bytes) : Bool :=
  decide (p.length ≤ 248)

/-- The arguments of a command fit a frame beside its command code (R200, R206). -/
def argsFit (args : Bytes) : Bool :=
  decide (args.length ≤ 247)

/-- A shot report comes from the node of a head (R203). -/
def headNode (node : Byte) : Bool :=
  decide (1 ≤ node.toNat) && decide (node.toNat ≤ 8)

/-- A kind and node that the routing table knows (R203). -/
def routed (kind node : Byte) : Bool :=
  (kind == kindShotReport && headNode node) || (kind == kindMotionReport && node == 14)

/-- The receiver discards the bytes received for a line chain frame (R202). -/
def lineDiscarded (received : Bytes) : Bool :=
  match receiveLine received with
  | .discard _ _ => true
  | .frame _ => false
  | .nothing => false

/-- The receiver discards the bytes received for a head link frame, or they are a motion report of the wrong length (R202, R203). -/
def headDiscarded (received : Bytes) : Bool :=
  match receiveHead received with
  | .discard _ _ => true
  | .frame f => f.kind == kindMotionReport && f.node == 14 && f.payload.length != 11
  | .nothing => false

/-- The operands of a command are such as the link and the row give it. -/
def Instr.wellFormed : Instr → Bool
  | .readTable _ _ args => argsFit args
  | .writeTable _ _ args => argsFit args
  | .start _ _ args => argsFit args
  | .stop _ _ args => argsFit args
  | .announce _ _ args => argsFit args
  | .requestCal _ _ args => argsFit args
  | .setAddress _ _ args => argsFit args
  | .status _ _ args => argsFit args
  | .setScratch _ _ args => argsFit args
  | .clearCapture _ _ args => argsFit args
  -- the command's own last byte has just arrived, so the upstream receiver holds no part of a frame
  | .restart _ _ args cut => argsFit args && !cut.upstream
  | .restartTakesEffect _ _ => true
  | .coldReset _ _ => true
  | .rstRise _ => true
  | .shotReport _ node payload => headNode node && payloadFits payload
  | .motionReport _ node payload => node == 14 && payloadFits payload
  | .headLinkUnknownKind _ node kind payload => !routed kind node && payloadFits payload
  | .headFrameCheck _ received => headDiscarded received
  | .upstreamFrameArrival _ f => payloadFits f.payload
  | .downstreamFrameArrival _ f => payloadFits f.payload
  | .lineFrameCheck _ _ received => lineDiscarded received
  | .upstreamTransmitterFree _ => true
  | .downstreamTransmitterFree _ => true
  | .headLinkTransmitDone _ => true
  | .cycleEnd => true
  | .firingPoint _ => true
  | .replyWindowExpiry _ => true
  | .calibrationTimerExpiry => true
  | .gateLineChange _ _ _ => true
  | .gateFilterExpiry _ => true
  | .lineFallsIdle _ _ => true

/-- The payload of the frame that a command arrives in; empty for an event that no checked frame carries. -/
def Instr.payload : Instr → Bytes
  | .readTable _ _ args => 1 :: args
  | .writeTable _ _ args => 2 :: args
  | .start _ _ args => 3 :: args
  | .stop _ _ args => 4 :: args
  | .announce _ _ args => 5 :: args
  | .requestCal _ _ args => 6 :: args
  | .setAddress _ _ args => 7 :: args
  | .status _ _ args => 8 :: args
  | .setScratch _ _ args => 9 :: args
  | .clearCapture _ _ args => 10 :: args
  | .restart _ _ args _ => 11 :: args
  | .shotReport _ _ payload => payload
  | .motionReport _ _ payload => payload
  | .headLinkUnknownKind _ _ _ payload => payload
  | .upstreamFrameArrival _ f => f.payload
  | .downstreamFrameArrival _ f => f.payload
  | .restartTakesEffect _ _ => []
  | .coldReset _ _ => []
  | .rstRise _ => []
  | .headFrameCheck _ _ => []
  | .lineFrameCheck _ _ _ => []
  | .upstreamTransmitterFree _ => []
  | .downstreamTransmitterFree _ => []
  | .headLinkTransmitDone _ => []
  | .cycleEnd => []
  | .firingPoint _ => []
  | .replyWindowExpiry _ => []
  | .calibrationTimerExpiry => []
  | .gateLineChange _ _ _ => []
  | .gateFilterExpiry _ => []
  | .lineFallsIdle _ _ => []

end Sys2Proof
end

