-- ==== Sys2Proof/Laws/PerInstr.lean ====
section
/-! SUPPORT. A family proved command by command: a well-formed command's frame fits its link. -/

namespace Sys2Proof.Laws

/-- The payload of the frame that carries a well-formed command fits a frame (R200). -/
def FitsFrame.Statement (i : Instr) : Prop :=
  i.wellFormed = true → i.payload.length ≤ 248

theorem FitsFrame.readTable (t : PartTime) (h : CommandHeader) (args : Bytes) : FitsFrame.Statement (.readTable t h args) := by
  intro h
  simp [Instr.wellFormed, argsFit, Instr.payload] at h ⊢
  omega

theorem FitsFrame.writeTable (t : PartTime) (h : CommandHeader) (args : Bytes) : FitsFrame.Statement (.writeTable t h args) := by
  intro h
  simp [Instr.wellFormed, argsFit, Instr.payload] at h ⊢
  omega

theorem FitsFrame.start (t : PartTime) (h : CommandHeader) (args : Bytes) : FitsFrame.Statement (.start t h args) := by
  intro h
  simp [Instr.wellFormed, argsFit, Instr.payload] at h ⊢
  omega

theorem FitsFrame.stop (t : PartTime) (h : CommandHeader) (args : Bytes) : FitsFrame.Statement (.stop t h args) := by
  intro h
  simp [Instr.wellFormed, argsFit, Instr.payload] at h ⊢
  omega

theorem FitsFrame.announce (t : PartTime) (h : CommandHeader) (args : Bytes) : FitsFrame.Statement (.announce t h args) := by
  intro h
  simp [Instr.wellFormed, argsFit, Instr.payload] at h ⊢
  omega

theorem FitsFrame.requestCal (t : PartTime) (h : CommandHeader) (args : Bytes) : FitsFrame.Statement (.requestCal t h args) := by
  intro h
  simp [Instr.wellFormed, argsFit, Instr.payload] at h ⊢
  omega

theorem FitsFrame.setAddress (t : PartTime) (h : CommandHeader) (args : Bytes) : FitsFrame.Statement (.setAddress t h args) := by
  intro h
  simp [Instr.wellFormed, argsFit, Instr.payload] at h ⊢
  omega

theorem FitsFrame.status (t : PartTime) (h : CommandHeader) (args : Bytes) : FitsFrame.Statement (.status t h args) := by
  intro h
  simp [Instr.wellFormed, argsFit, Instr.payload] at h ⊢
  omega

theorem FitsFrame.setScratch (t : PartTime) (h : CommandHeader) (args : Bytes) : FitsFrame.Statement (.setScratch t h args) := by
  intro h
  simp [Instr.wellFormed, argsFit, Instr.payload] at h ⊢
  omega

theorem FitsFrame.clearCapture (t : PartTime) (h : CommandHeader) (args : Bytes) : FitsFrame.Statement (.clearCapture t h args) := by
  intro h
  simp [Instr.wellFormed, argsFit, Instr.payload] at h ⊢
  omega

theorem FitsFrame.restart (t : PartTime) (h : CommandHeader) (args : Bytes) (cut : Cut) : FitsFrame.Statement (.restart t h args cut) := by
  intro h
  simp [Instr.wellFormed, argsFit, Instr.payload] at h ⊢
  omega

theorem FitsFrame.restartTakesEffect (t : PartTime) (cut : Cut) : FitsFrame.Statement (.restartTakesEffect t cut) := by
  intro _
  simp [Instr.payload]

theorem FitsFrame.coldReset (t : PartTime) (cut : Cut) : FitsFrame.Statement (.coldReset t cut) := by
  intro _
  simp [Instr.payload]

theorem FitsFrame.rstRise (t : PartTime) : FitsFrame.Statement (.rstRise t) := by
  intro _
  simp [Instr.payload]

theorem FitsFrame.shotReport (t : PartTime) (node : Byte) (payload : Bytes) : FitsFrame.Statement (.shotReport t node payload) := by
  intro h
  simp [Instr.wellFormed, payloadFits] at h
  simp [Instr.payload, h]

theorem FitsFrame.motionReport (t : PartTime) (node : Byte) (payload : Bytes) : FitsFrame.Statement (.motionReport t node payload) := by
  intro h
  simp [Instr.wellFormed, payloadFits] at h
  simp [Instr.payload, h]

theorem FitsFrame.headLinkUnknownKind (t : PartTime) (node kind : Byte) (payload : Bytes) : FitsFrame.Statement (.headLinkUnknownKind t node kind payload) := by
  intro h
  simp [Instr.wellFormed, payloadFits] at h
  simp [Instr.payload, h]

theorem FitsFrame.headFrameCheck (t : PartTime) (received : Bytes) : FitsFrame.Statement (.headFrameCheck t received) := by
  intro _
  simp [Instr.payload]

theorem FitsFrame.upstreamFrameArrival (t : PartTime) (f : LineFrame) : FitsFrame.Statement (.upstreamFrameArrival t f) := by
  intro h
  simp [Instr.wellFormed, payloadFits] at h
  simp [Instr.payload, h]

theorem FitsFrame.downstreamFrameArrival (t : PartTime) (f : LineFrame) : FitsFrame.Statement (.downstreamFrameArrival t f) := by
  intro h
  simp [Instr.wellFormed, payloadFits] at h
  simp [Instr.payload, h]

theorem FitsFrame.lineFrameCheck (t : PartTime) (port : ChainPort) (received : Bytes) : FitsFrame.Statement (.lineFrameCheck t port received) := by
  intro _
  simp [Instr.payload]

theorem FitsFrame.upstreamTransmitterFree (t : PartTime) : FitsFrame.Statement (.upstreamTransmitterFree t) := by
  intro _
  simp [Instr.payload]

theorem FitsFrame.downstreamTransmitterFree (t : PartTime) : FitsFrame.Statement (.downstreamTransmitterFree t) := by
  intro _
  simp [Instr.payload]

theorem FitsFrame.headLinkTransmitDone (t : PartTime) : FitsFrame.Statement (.headLinkTransmitDone t) := by
  intro _
  simp [Instr.payload]

theorem FitsFrame.cycleEnd : FitsFrame.Statement (.cycleEnd) := by
  intro _
  simp [Instr.payload]

theorem FitsFrame.firingPoint (entry : Fin 48) : FitsFrame.Statement (.firingPoint entry) := by
  intro _
  simp [Instr.payload]

theorem FitsFrame.replyWindowExpiry (head : Fin 8) : FitsFrame.Statement (.replyWindowExpiry head) := by
  intro _
  simp [Instr.payload]

theorem FitsFrame.calibrationTimerExpiry : FitsFrame.Statement (.calibrationTimerExpiry) := by
  intro _
  simp [Instr.payload]

theorem FitsFrame.gateLineChange (t : PartTime) (line : GateLine) (high : Bool) : FitsFrame.Statement (.gateLineChange t line high) := by
  intro _
  simp [Instr.payload]

theorem FitsFrame.gateFilterExpiry (line : GateLine) : FitsFrame.Statement (.gateFilterExpiry line) := by
  intro _
  simp [Instr.payload]

theorem FitsFrame.lineFallsIdle (t : PartTime) (port : Receiver) : FitsFrame.Statement (.lineFallsIdle t port) := by
  intro _
  simp [Instr.payload]

end Sys2Proof.Laws
end

