-- ==== Sys2Proof/Laws/Resolution.lean ====
section
/-! SUPPORT. The frame of resolution: what taking items from the resolution queue, closing segments and ending shells leave alone (R100,
R101, R118, R122). -/

namespace Sys2Proof.Machine

/-- What every stage of a resolution leaves as it was. -/
structure ResolutionFrame (s s' : State) : Prop where
  partTime  : s'.partTime = s.partTime
  rstHigh   : s'.rstHigh = s.rstHigh
  hlp       : s'.hlp = s.hlp
  fsc       : s'.fsc = s.fsc
  rsq       : s'.rsq = s.rsq
  lcp       : s'.lcp = s.lcp
  tst       : s'.tst = s.tst
  freeCount : s'.freeCount = s.freeCount
  pending   : s'.pending = s.pending
  request   : s'.hcu.request = s.hcu.request
  pointer   : s'.hcu.pointer = s.hcu.pointer
  timer     : s'.hcu.timer = s.hcu.timer
  history   : s'.mtr.history = s.mtr.history
  gateA     : s'.mtr.gateA = s.mtr.gateA
  gateB     : s'.mtr.gateB = s.mtr.gateB
  state     : ∀ h, (s'.head h).state = (s.head h).state
  miss      : ∀ h, (s'.head h).miss = (s.head h).miss
  k         : ∀ h, (s'.head h).k = (s.head h).k
  cal       : ∀ h, (s'.head h).cal = (s.head h).cal

namespace ResolutionFrame

theorem refl (s : State) : ResolutionFrame s s := by
  constructor <;> intros <;> rfl

theorem trans {a b c : State} (x : ResolutionFrame a b) (y : ResolutionFrame b c) : ResolutionFrame a c where
  partTime := y.partTime.trans x.partTime
  rstHigh := y.rstHigh.trans x.rstHigh
  hlp := y.hlp.trans x.hlp
  fsc := y.fsc.trans x.fsc
  rsq := y.rsq.trans x.rsq
  lcp := y.lcp.trans x.lcp
  tst := y.tst.trans x.tst
  freeCount := y.freeCount.trans x.freeCount
  pending := y.pending.trans x.pending
  request := y.request.trans x.request
  pointer := y.pointer.trans x.pointer
  timer := y.timer.trans x.timer
  history := y.history.trans x.history
  gateA := y.gateA.trans x.gateA
  gateB := y.gateB.trans x.gateB
  state := fun h => (y.state h).trans (x.state h)
  miss := fun h => (y.miss h).trans (x.miss h)
  k := fun h => (y.k h).trans (x.k h)
  cal := fun h => (y.cal h).trans (x.cal h)

theorem setWmb (s : State) (x : Wmb) : ResolutionFrame s (s.setWmb x) := by
  constructor <;> intros <;> rfl

theorem setRqu (s : State) (x : Rqu) : ResolutionFrame s (s.setRqu x) := by
  constructor <;> intros <;> rfl

theorem setCmu (s : State) (x : Cmu) : ResolutionFrame s (s.setCmu x) := by
  constructor <;> intros <;> rfl

theorem claim (s : State) (c : Claimant) : ResolutionFrame s (s.claim c) := by
  constructor <;> intros <;> rfl

theorem setCtx (s : State) (i : Fin 2) (c : Option ShellContext) : ResolutionFrame s (s.setCtx i c) := by
  constructor <;> intros <;> rfl

theorem modCtx (s : State) (i : Fin 2) (f : ShellContext → ShellContext) : ResolutionFrame s (s.modCtx i f) :=
  setCtx s i _

theorem mapCtx (s : State) (f : ShellContext → ShellContext) : ResolutionFrame s (s.mapCtx f) :=
  (modCtx s 0 f).trans (modCtx _ 1 f)

theorem report (s : State) (kind : CaptureKind) (source : CaptureSource) (time : PartTime) (detail : Nat) :
    ResolutionFrame s (s.report kind source time detail) := by
  rcases s.report_eq kind source time detail with e | e <;> rw [e]
  · exact setCmu s _
  · exact ((setCmu s _).trans (setRqu _ _)).trans (claim _ _)

theorem recordOutcome (s : State) (h : Fin 8) (good : Bool) : ResolutionFrame s (s.recordOutcome h good) := by
  constructor <;> try intros
  all_goals try rfl
  all_goals
    simp only [State.recordOutcome, State.setHead_head_ite]
    split
    · rename_i e; subst e; rfl
    · rfl

theorem offerSegment (s : State) (r : SegmentReport) : ResolutionFrame s (s.offerSegment r) := by
  unfold State.offerSegment
  split
  · exact refl s
  · exact (setRqu s _).trans (claim _ _)

theorem closeSegment (s : State) (r : OpenSegment) (early : Bool) : ResolutionFrame s (s.closeSegment r early) := by
  unfold State.closeSegment
  split
  · exact setWmb s _
  · exact ((setWmb s _).trans (offerSegment _ _)).trans (setCtx _ _ _)

theorem closeRun (shell : Nat) (test : Nat → Bool) (fuel : Nat) (s : State) : ResolutionFrame s (s.closeRun shell test fuel) := by
  induction fuel generalizing s with
  | zero => exact refl s
  | succ n ih =>
    unfold State.closeRun
    split
    · exact refl s
    · split
      · exact (closeSegment s _ _).trans (ih _)
      · exact refl s

theorem naturalClose (s : State) (c : ShellContext) (d : Int) : ResolutionFrame s (s.naturalClose c d) := by
  unfold State.naturalClose
  split
  · exact closeRun _ _ _ s
  · exact refl s

theorem countReason (s : State) (i : Fin 2) (r : Reason) : ResolutionFrame s (s.countReason i r) :=
  modCtx s i _

theorem acceptGood (s : State) (p : Placed) (wall : Nat) : ResolutionFrame s (s.acceptGood p wall) := by
  unfold State.acceptGood
  split
  · exact refl s
  · dsimp only
    split
    · exact (setWmb s _).trans (countReason _ _ _)
    · split
      · exact countReason s _ _
      · split
        · exact (setWmb s _).trans (countReason _ _ _)
        · split
          · exact countReason s _ _
          · split
            · exact countReason s _ _
            · exact ((closeSegment s _ _).trans (setWmb _ _)).trans (countReason _ _ _)

theorem deliver (s : State) (h : Fin 8) (p : Placed) (e : Evaluation) : ResolutionFrame s (s.deliver h p e) := by
  unfold State.deliver
  split
  · split
    · exact acceptGood s p _
    · exact countReason s _ _
  all_goals exact countReason s _ _

theorem evaluateShot (s : State) (x : Shot) (p : Placed) : ResolutionFrame s (s.evaluateShot x p) := by
  unfold State.evaluateShot
  split
  · exact refl s
  · split
    · exact ((setCtx s _ _).trans (recordOutcome _ _ _)).trans (deliver _ _ _ _)
    · exact countReason s _ _

theorem resolveShot (s : State) (x : Shot) : ResolutionFrame s (s.resolveShot x) := by
  have stale : ResolutionFrame s (s.discardStale x) := by
    unfold State.discardStale
    split
    · exact refl s
    · exact report s _ _ _ _
  unfold State.resolveShot
  split
  · exact stale
  · split
    · unfold State.resolveBracketed
      split
      · exact refl s
      · exact report s _ _ _ _
      · exact report s _ _ _ _
      · exact evaluateShot s x _
    · exact stale

theorem reserve (s : State) (date : PartTime) : ResolutionFrame s (s.reserve date) := by
  unfold State.reserve
  dsimp only
  refine ResolutionFrame.trans ?_ (setRqu _ _)
  split
  · unfold State.discardOldest
    split
    · exact refl s
    · dsimp only
      split
      · exact ((setRqu s _).trans (report _ _ _ _ _)).trans (mapCtx _ _)
      · exact (setRqu s _).trans (report _ _ _ _ _)
  · exact refl s

theorem enterShell (s : State) (i : Fin 2) (date : PartTime) (m : Motion) (clamped : Bool) :
    ResolutionFrame s (s.enterShell i date m clamped) := by
  refine (reserve s date).trans ?_
  constructor <;> intros <;> rfl

theorem resolveGate (s : State) (g : GateEdge) : ResolutionFrame s (s.resolveGate g) := by
  unfold State.resolveGate
  dsimp only
  split
  · unfold State.gateARise
    split
    · exact report s _ _ _ _
    · split
      · exact report s _ _ _ _
      · split
        · exact report s _ _ _ _
        · exact enterShell s _ _ _ _
  · unfold State.gateAFall
    split
    · exact report s _ _ _ _
    · exact modCtx s _ _
  · unfold State.gateBRise
    split
    · exact report s _ _ _ _
    · exact modCtx s _ _
  · exact refl s

/-- One item resolved, whatever it is. -/
theorem resolveItem (s : State) (i : Item) : ResolutionFrame s (s.resolveItem i) := by
  cases i with
  | shot x => exact resolveShot s x
  | gate g => exact resolveGate s g

theorem endShell (s : State) (i : Fin 2) : ResolutionFrame s (s.endShell i) := by
  unfold State.endShell
  split
  · exact refl s
  · dsimp only
    split
    · exact closeRun _ _ _ s
    · exact (((closeRun _ _ _ s).trans (setRqu _ _)).trans (claim _ _)).trans (setCtx _ _ _)

theorem checkContext (s : State) (enc : Count) (i : Fin 2) : ResolutionFrame s (s.checkContext enc i) := by
  unfold State.checkContext
  split
  · exact refl s
  · dsimp only
    split <;> split
    · exact (((setCtx s _ _).trans (naturalClose _ _ _)).trans (modCtx _ _ _)).trans (endShell _ _)
    · exact (setCtx s _ _).trans (naturalClose _ _ _)
    · exact ((setCtx s _ _).trans (modCtx _ _ _)).trans (endShell _ _)
    · exact setCtx s _ _

/-- The end-of-pass checks. -/
theorem endOfPass (s : State) (enc : Count) : ResolutionFrame s (s.endOfPass enc) := by
  unfold State.endOfPass State.slots
  exact (checkContext s enc _).trans (checkContext _ enc _)

end ResolutionFrame

/-- The pass over the items of a queue: it takes a run of items from the front, none later than the sample, and stops at the first that is
later; apart from the queue it keeps the frame (R99, R101). -/
theorem State.passItems_spec (tau : PartTime) (items : List Item) (s : State) (e : s.rsq.items = items) :
    ∃ n, (s.passItems tau items).rsq.items = items.drop n
      ∧ (∀ i ∈ items.take n, earlier tau i.time = false)
      ∧ (∀ i, (items.drop n).head? = some i → earlier tau i.time = true)
      ∧ ResolutionFrame (s.setRsq ⟨items.drop n⟩) (s.passItems tau items) := by
  induction items generalizing s with
  | nil =>
    refine ⟨0, e, by simp, by simp, ?_⟩
    have : s.setRsq ⟨[]⟩ = s := by
      have : (⟨[]⟩ : Rsq) = s.rsq := by cases h : s.rsq; simp_all
      rw [this]; rfl
    simpa [State.passItems, this] using ResolutionFrame.refl s
  | cons i rest ih =>
    unfold State.passItems
    by_cases c : earlier tau i.time = true
    · rw [if_pos c]
      refine ⟨0, e, by simp, by simpa using c, ?_⟩
      have : s.setRsq ⟨i :: rest⟩ = s := by
        have : (⟨i :: rest⟩ : Rsq) = s.rsq := by cases h : s.rsq; simp_all
        rw [this]; rfl
      simpa [this] using ResolutionFrame.refl s
    · rw [if_neg c]
      have frame := ResolutionFrame.resolveItem (s.setRsq { s.rsq with items := rest }) i
      have items' : ((s.setRsq { s.rsq with items := rest }).resolveItem i).rsq.items = rest := by rw [frame.rsq]; rfl
      obtain ⟨n, h1, h2, h3, h4⟩ := ih _ items'
      refine ⟨n + 1, by simpa using h1, ?_, by simpa using h3, ?_⟩
      · intro x hx
        rcases List.mem_cons.mp (by simpa using hx) with rfl | hx
        · simpa using c
        · exact h2 x hx
      · refine ResolutionFrame.trans ?_ h4
        have := frame
        constructor
        all_goals try intro h
        · exact this.partTime
        · exact this.rstHigh
        · exact this.hlp
        · exact this.fsc
        · simp
        · exact this.lcp
        · exact this.tst
        · exact this.freeCount
        · exact this.pending
        · exact this.request
        · exact this.pointer
        · exact this.timer
        · exact this.history
        · exact this.gateA
        · exact this.gateB
        · exact this.state h
        · exact this.miss h
        · exact this.k h
        · exact this.cal h

end Sys2Proof.Machine
end

