-- ==== Sys2Proof/Laws/Schedule.lean ====
section
/-! SUPPORT. The schedule list as a whole, what the checks of START accept of one entry (R27), and the frame of the round tally (R23, R43, R44). -/

namespace Sys2Proof.Machine

/-- The list has 48 entries (R23). -/
theorem State.scheduleList_length (s : State) : s.scheduleList.length = 48 := by
  simp [State.scheduleList, List.length_flatMap]

/-- The first END is the entry that is an END while none before it is (R23). -/
theorem State.finIndex_eq (s : State) {n o : Nat} (hn : n < 48) (he : s.entry n = .fin o)
    (hb : ∀ m, m < n → (s.entry m).isFin = false) : s.finIndex = n := by
  have hl := s.scheduleList_length
  have hn' : n < s.scheduleList.length := by omega
  unfold State.finIndex
  rw [List.findIdx_eq hn']
  refine ⟨?_, ?_⟩
  · have e : s.scheduleList[n] = .fin o := by
      rw [← List.getD_eq_getElem _ ListEntry.none hn']; exact he
    rw [e]; rfl
  · intro j hj
    have hj' : j < s.scheduleList.length := by omega
    have := hb j hj
    unfold State.entry at this
    rw [List.getD_eq_getElem _ _ hj'] at this
    simpa using this

/-- While no entry up to one is an END, the first END lies beyond it (R23). -/
theorem State.lt_finIndex (s : State) {n : Nat} (hn : n < 48) (hb : ∀ m, m ≤ n → (s.entry m).isFin = false) : n < s.finIndex := by
  have hl := s.scheduleList_length
  by_contra hc
  have h1 : s.scheduleList.findIdx ListEntry.isFin < s.scheduleList.length := by unfold State.finIndex at hc; omega
  have h2 := List.findIdx_getElem (w := h1)
  have h3 := hb _ (Nat.le_of_not_lt hc)
  unfold State.entry State.finIndex at h3
  rw [List.getD_eq_getElem _ _ h1, h2] at h3
  cases h3

/-- An entry of the list is read at its index (R23). -/
theorem State.entry_eq_getElem (s : State) {n : Nat} (hn : n < 48) :
    s.entry n = s.scheduleList[n]'(by rw [s.scheduleList_length]; exact hn) := by
  unfold State.entry
  rw [List.getD_eq_getElem]

/-- An END at an index is not before the first END (R23). -/
theorem State.finIndex_le (s : State) {n : Nat} (hn : n < 48) (hf : (s.entry n).isFin = true) : s.finIndex ≤ n := by
  by_contra hc
  have := List.not_of_lt_findIdx (p := ListEntry.isFin) (xs := s.scheduleList) (i := n) (by unfold State.finIndex at hc; omega)
  rw [s.entry_eq_getElem hn] at hf
  simp_all

/-- An entry that is no END is not the first END (R23). -/
theorem State.finIndex_ne (s : State) {n : Nat} (hn : n < 48) (hf : (s.entry n).isFin = false) : s.finIndex ≠ n := by
  rintro rfl
  have hl : s.finIndex < s.scheduleList.length := by rw [s.scheduleList_length]; exact hn
  rw [s.entry_eq_getElem hn] at hf
  have found : ListEntry.isFin s.scheduleList[s.finIndex] = true := List.findIdx_getElem (w := hl)
  rw [found] at hf
  cases hf

/-- An END stands before an entry exactly when the first END does (R23). -/
theorem State.afterEnd_iff (s : State) {n : Nat} (hn : n < 48) : s.afterEnd n ↔ s.finIndex < n := by
  constructor
  · rintro ⟨m, hm, hf⟩
    exact Nat.lt_of_le_of_lt (s.finIndex_le (by omega) hf) hm
  · intro hf
    refine ⟨s.finIndex, hf, ?_⟩
    rw [s.entry_eq_getElem (by omega)]
    exact List.findIdx_getElem (w := by rw [s.scheduleList_length]; exact Nat.lt_trans hf hn)

/-- The model's least offset is the one of check 2 of R27. -/
theorem State.leastOffset_eq (s : State) (n : Nat) : s.leastOffset n = s.spacedOffset n := by
  cases n <;> simp [State.leastOffset, State.spacedOffset]

/-- The model's check of one entry passes exactly what the five checks of R27 accept. -/
theorem State.entryPasses_iff (s : State) {roundLength n : Nat} (hn : n < 48) (hL : s.tst.header = some roundLength) :
    s.entryPasses n = true ↔ s.EntrySound roundLength n := by
  unfold State.entryPasses State.EntrySound
  rw [s.afterEnd_iff hn]
  cases he : s.entry n with
  | none =>
    have := s.finIndex_ne hn (by rw [he]; rfl)
    simp [State.ShotPasses, he]
  | fin o =>
    have := s.finIndex_le hn (by rw [he]; rfl)
    simp only [State.ShotPasses, he, s.leastOffset_eq, Bool.and_eq_true, decide_eq_true_eq, ListEntry.fin.injEq, reduceCtorEq]
    constructor
    · rintro ⟨⟨⟨⟨h1, h2⟩, h3⟩, h4⟩, h5⟩
      exact .inr (.inl ⟨by omega, h5, o, rfl, h2, h3, h4⟩)
    · rintro (⟨_, _, _, _, _, _, _, h, _⟩ | ⟨h1, h5, _, rfl, h2, h3, h4⟩ | ⟨_, h⟩)
      · cases h
      · exact ⟨⟨⟨⟨by omega, h2⟩, h3⟩, h4⟩, h5⟩
      · cases h
  | shot o h p phase w steal =>
    have := s.finIndex_ne hn (by rw [he]; rfl)
    simp [State.ShotPasses, he, s.leastOffset_eq, hL]
    constructor
    · rintro ⟨⟨⟨⟨⟨h1, h2⟩, h3⟩, h4⟩, h5⟩, h6⟩
      exact ⟨by omega, h2, h3, h4, h5, h6⟩
    · rintro ⟨h1, h2, h3, h4, h5, h6⟩
      exact ⟨⟨⟨⟨⟨by omega, h2⟩, h3⟩, h4⟩, h5⟩, h6⟩

/-- What the round tally's bookkeeping never touches: everything but the tallies, the last round's result, the level and LEVEL_CHANGE. -/
structure TallyFrame (s s' : State) : Prop where
  partTime   : s'.partTime = s.partTime
  rstHigh    : s'.rstHigh = s.rstHigh
  hlp        : s'.hlp = s.hlp
  hcu        : s'.hcu = s.hcu
  mtr        : s'.mtr = s.mtr
  rsq        : s'.rsq = s.rsq
  wmb        : s'.wmb = s.wmb
  entries    : s'.rqu.entries = s.rqu.entries
  lcp        : s'.lcp = s.lcp
  cmu        : s'.cmu = s.cmu
  tst        : s'.tst = s.tst
  freeCount  : s'.freeCount = s.freeCount
  pending    : s'.pending = s.pending
  state      : s'.fsc.state = s.fsc.state
  cycleCount : s'.fsc.cycleCount = s.fsc.cycleCount
  cycleStart : s'.fsc.cycleStart = s.fsc.cycleStart
  place      : s'.fsc.place = s.fsc.place
  round      : s'.fsc.round = s.fsc.round
  records    : s'.fsc.records = s.fsc.records
  seqs       : s'.fsc.seqs = s.fsc.seqs

theorem TallyFrame.refl (s : State) : TallyFrame s s := by
  constructor <;> rfl

theorem TallyFrame.modTally (s : State) (round : Nat) (f : Tally → Tally) : TallyFrame s (s.modTally round f) := by
  constructor <;> rfl

theorem TallyFrame.resolveRound (s : State) (round : Nat) : TallyFrame s (s.resolveRound round) := by
  unfold State.resolveRound
  split
  · exact refl s
  · split
    · rcases State.recomputeLevel_eq _ with ⟨e, _⟩ | ⟨e, _⟩ <;> rw [e] <;> constructor <;> rfl
    · exact refl s

/-- The tally of a round that is marked ended is found as it was, but for the mark. -/
theorem State.find?_ended (s : State) {round : Nat} {x : Tally} (f : (s.fsc.tallies.find? fun y => y.round == round) = some x) :
    ((s.modTally round fun y => { y with ended := true }).fsc.tallies.find? fun y => y.round == round)
      = some { x with ended := true } := by
  have same : ((fun y : Tally => y.round == round) ∘ fun y => if y.round = round then { y with ended := true } else y)
      = fun y => y.round == round := by
    funext y
    simp only [Function.comp]
    split <;> rfl
  have at_round : x.round = round := by simpa using List.find?_some f
  simp only [State.modTally, State.setFsc, List.find?_map, same, f]
  simp [at_round]

/-- A round that ends with every fire resolved loses its tally, and gives the last result and the level (R44, R45). -/
theorem State.endRound_resolved (s : State) {x : Tally} (f : (s.fsc.tallies.find? fun y => y.round == s.fsc.round) = some x)
    (r : x.issued = x.resolved) :
    s.endRound = (s.setFsc { s.fsc with
      tallies := s.fsc.tallies.filter fun y => y.round != s.fsc.round
      lastShort := decide (0 < x.misses ∨ 0 < x.skips) }).recomputeLevel := by
  unfold State.endRound State.resolveRound
  rw [s.find?_ended f]
  simp only [r, and_self, if_true]
  have others : ∀ l : List Tally,
      (l.map fun y => if y.round = s.fsc.round then { y with ended := true } else y).filter (fun y => y.round != s.fsc.round)
        = l.filter fun y => y.round != s.fsc.round := by
    intro l
    induction l with
    | nil => rfl
    | cons y l ih => by_cases e : y.round = s.fsc.round <;> simp_all
  simp only [State.modTally, State.setFsc, others]

/-- A round that ends with fires outstanding keeps its tally, marked ended, and nothing else changes (R43, R44). -/
theorem State.endRound_unresolved (s : State) {x : Tally} (f : (s.fsc.tallies.find? fun y => y.round == s.fsc.round) = some x)
    (r : x.issued ≠ x.resolved) : s.endRound = s.modTally s.fsc.round fun y => { y with ended := true } := by
  unfold State.endRound State.resolveRound
  rw [s.find?_ended f]
  exact if_neg fun h => r h.2.symm

end Sys2Proof.Machine
end

