-- ==== Sys2Proof/Laws/ShellTracking.lean ====
section
/-! SUPPORT. What the Motion Tracker's searches over the two contexts (R75, R80, R83, R86) and over the history (R69) find, once for every
search, and the rounding of its interpolation (R70). -/

namespace Sys2Proof.Machine

/-- Some context satisfies a test exactly when a live slot's context does. -/
theorem State.anyCtx_iff (s : State) (p : ShellContext → Bool) : s.anyCtx p = true ↔ ∃ i c, s.ctx i = some c ∧ p c = true := by
  simp only [State.anyCtx, Bool.or_eq_true, Option.any_eq_true]
  constructor
  · rintro (⟨c, h⟩ | ⟨c, h⟩)
    exacts [⟨0, c, h⟩, ⟨1, c, h⟩]
  · rintro ⟨i, c, h⟩
    match i with
    | 0 => exact .inl ⟨c, h⟩
    | 1 => exact .inr ⟨c, h⟩

/-- The other slot is the one that is not this. -/
theorem otherSlot_eq {i j : Fin 2} (n : i ≠ j) : otherSlot j = i := by
  revert i j; decide

/-- A search of the slots, the older first, finds what the older gives, and else what the other gives. -/
theorem State.slots_findSome {α : Type} (s : State) (f : Fin 2 → Option α) (i : Fin 2) (a : α) (h : f i = some a)
    (first : i = s.mtr.older ∨ f s.mtr.older = none) : s.slots.findSome? f = some a := by
  unfold State.slots
  by_cases e : i = s.mtr.older
  · subst e; simp [h]
  · simp [first.resolve_left e, otherSlot_eq e, h]

/-- The slot of the only context that satisfies a test is found. -/
theorem State.findSlot_unique (s : State) (p : ShellContext → Bool) (i : Fin 2) (c : ShellContext) (h : s.ctx i = some c)
    (hp : p c = true) (only : ∀ j c', j ≠ i → s.ctx j = some c' → p c' = false) : s.findSlot p = some i := by
  have mine : (s.ctx i).any p = true := by simp [h, hp]
  have others : ∀ j, j ≠ i → (s.ctx j).any p = false := by
    intro j hj
    cases e : s.ctx j with
    | none => rfl
    | some c' => simpa using only j c' hj e
  unfold State.findSlot State.slots
  by_cases e : s.mtr.older = i
  · simp [e, mine]
  · simp [others _ e, otherSlot_eq (Ne.symm e), mine]

/-- No slot is found when no context satisfies the test. -/
theorem State.findSlot_none (s : State) (p : ShellContext → Bool) (none_ : ∀ j c, s.ctx j = some c → p c = false) :
    s.findSlot p = none := by
  unfold State.findSlot
  rw [List.find?_eq_none]
  intro j _
  cases e : s.ctx j with
  | none => simp
  | some c => simpa using none_ j c e

/-! ### Searches over an ordered history (R69), and rounding (R70) -/

/-- The first sample that passes a test is earlier than every other that passes it. -/
theorem find?_earliest (history : List Sample) (ordered : history.Pairwise fun a b => earlier a.tau b.tau = true) (p : Sample → Bool)
    (y : Sample) (h : history.find? p = some y) :
    y ∈ history ∧ p y = true ∧ ∀ x ∈ history, p x = true → x = y ∨ earlier y.tau x.tau = true := by
  obtain ⟨hp, before, rest, rfl, hb⟩ := List.find?_eq_some_iff_append.1 h
  refine ⟨by simp, hp, fun x hx hpx => ?_⟩
  rcases List.mem_append.1 hx with hx | hx
  · simpa [hpx] using hb x hx
  · rcases List.mem_cons.1 hx with rfl | hx
    · exact .inl rfl
    · exact .inr ((List.pairwise_cons.1 (List.pairwise_append.1 ordered).2.1).1 x hx)

/-- The last sample that passes a test is later than every other that passes it. -/
theorem getLast?_filter_latest (history : List Sample) (ordered : history.Pairwise fun a b => earlier a.tau b.tau = true)
    (p : Sample → Bool) (y : Sample) (h : (history.filter p).getLast? = some y) :
    y ∈ history ∧ p y = true ∧ ∀ x ∈ history, p x = true → x = y ∨ earlier x.tau y.tau = true := by
  obtain ⟨ys, e⟩ := List.getLast?_eq_some_iff.1 h
  have kept := List.mem_filter.1 (e ▸ List.mem_append_right ys (List.mem_singleton_self y))
  have order := ordered.filter p
  rw [e, List.pairwise_append] at order
  refine ⟨kept.1, kept.2, fun x hx hpx => ?_⟩
  have mem : x ∈ ys ++ [y] := e ▸ List.mem_filter.2 ⟨hx, hpx⟩
  rcases List.mem_append.1 mem with hx | hx
  · exact .inr (order.2.2 x hx y (by simp))
  · exact .inl (by simpa using hx)

/-- The rounded quotient is nearest to the exact one, and of two that are equally near the one farther from zero (0.4.3). -/
theorem roundDivInt_nearest (a : Int) (b : Nat) (hb : 0 < b) : RoundsTo a b (roundDivInt a b) := by
  have bounds : 2 * (a.natAbs : Int) + b < 2 * (roundDiv a.natAbs b * b : Nat) + 2 * b
      ∧ 2 * (roundDiv a.natAbs b * b : Nat) ≤ 2 * (a.natAbs : Int) + b := by
    unfold roundDiv
    have h1 := Nat.div_add_mod (2 * a.natAbs + b) (2 * b)
    have h2 := Nat.mod_lt (2 * a.natAbs + b) (show 0 < 2 * b by omega)
    have h3 : 2 * b * ((2 * a.natAbs + b) / (2 * b)) = 2 * ((2 * a.natAbs + b) / (2 * b) * b) := by ring
    omega
  unfold RoundsTo roundDivInt
  have e : -(roundDiv a.natAbs b : Int) * b = -(roundDiv a.natAbs b * b : Nat) := by push_cast; ring
  generalize roundDiv a.natAbs b * b = m at bounds e
  split
  · rw [e]
    simp only [Int.abs_eq_natAbs]
    omega
  · rw [show (roundDiv a.natAbs b : Int) * b = m by linarith]
    simp only [Int.abs_eq_natAbs]
    omega

end Sys2Proof.Machine
end

