-- ==== Sys2Proof/Laws/Tables.lean ====
section
/-! SUPPORT. What the checks of a table write accept, each said once (R184, R186 to R196): the model's test passes exactly what the rule's
words, as Safety.lean states them, allow. -/

namespace Sys2Proof.Machine

/-- A field within a run of bytes taken from contents is the field of the contents. -/
theorem field_take_drop (c : Bytes) {start len place size : Nat} (h : place + size ≤ len) :
    field ((c.drop start).take len) place size = field c (start + place) size := by
  unfold field
  rw [List.drop_take, List.take_take, List.drop_drop, Nat.min_eq_left (by omega)]

/-- A field of one byte is below 256, and one of two bytes below 65536. -/
theorem field_le_max (c : Bytes) (place : Nat) : field c place 1 ≤ 255 ∧ field c place 2 ≤ 65535 := by
  unfold field bytesToNat
  constructor
  · rcases c.drop place with _ | ⟨a, rest⟩
    · simp
    · have := a.isLt; simp; omega
  · rcases c.drop place with _ | ⟨a, _ | ⟨b, rest⟩⟩
    · simp
    · have := a.isLt; simp; omega
    · have := a.isLt; have := b.isLt; simp; omega

/-- A list entry is read exactly when its fields lie in their ranges (R194). -/
theorem readPartEntry_isSome (c : Bytes) (i : Nat) : (readPartEntry c i).isSome = true ↔ ListEntryInRange c i := by
  unfold readPartEntry readListEntry ListEntryInRange periods
  simp only [field_take_drop c (start := 7 * i) (len := 7) (by decide : 0 + 1 ≤ 7),
    field_take_drop c (start := 7 * i) (len := 7) (by decide : 1 + 2 ≤ 7),
    field_take_drop c (start := 7 * i) (len := 7) (by decide : 3 + 1 ≤ 7),
    field_take_drop c (start := 7 * i) (len := 7) (by decide : 4 + 1 ≤ 7),
    field_take_drop c (start := 7 * i) (len := 7) (by decide : 5 + 1 ≤ 7)]
  split_ifs with h0 h2 ho h1 hs <;> simp_all

/-- What the range test of a field says. -/
theorem within_iff (lo hi n : Nat) : within lo hi n = true ↔ lo ≤ n ∧ n ≤ hi := by
  simp [within]

/-- What the distance test of R188 and R190 says. -/
theorem standsClear_iff (gateDist distance : Nat) : standsClear gateDist distance = true ↔ gateDist < distance ∧ distance ≤ gateDist + 8000 := by
  simp [standsClear]

/-- The range check of step 6 passes exactly the contents whose every field lies in its range. -/
theorem contentsInRange_iff (table : Nat) (ht : table ≤ 9) (c : Bytes) : contentsInRange table c = true ↔ FieldsInRange table c := by
  have b := field_le_max c
  unfold FieldsInRange
  interval_cases table
  · simp [contentsInRange, HeadEntry.inRange, readHeadEntry, within_iff, and_assoc]
  · simp [contentsInRange, Tracking.inRange, readTracking, within_iff, and_assoc, (b 0).2]
  · simp [contentsInRange, Product.inRange, readProduct, within_iff, and_assoc, (b 10).2, (b 12).2, (b 16).1]
  · simp [contentsInRange, GradePart.inRange, GradePoint.inRange, readGradePart, within_iff, and_assoc]
  · simp [contentsInRange, within_iff]
  · simp [contentsInRange, readPartEntry_isSome]
  · simp [contentsInRange, readProfile, within_iff, and_assoc]
  · simp [contentsInRange, readCalSetup, within_iff]
  · simp [contentsInRange]
  · simp [contentsInRange, within_iff]

/-- The check of step 7 passes exactly the contents that keep the constraints between tables. -/
theorem State.contentsConsistent_iff (s : State) (table : Nat) (c : Bytes) :
    s.contentsConsistent table c = true ↔ s.CrossTable table c := by
  unfold State.CrossTable State.contentsConsistent
  split
  · cases s.tst.tracking <;> cases e : flagBit c 0 0 <;> simp [readHeadEntry, standsClear, e]
  · have all (p : Fin 8 → Bool) : allHeads.all p = true ↔ ∀ h, p h = true := by
      rw [List.all_eq_true]
      have mem : ∀ h : Fin 8, h ∈ allHeads := by decide
      exact forall_congr' fun h => ⟨fun f => f (mem h), fun f _ => f⟩
    rw [all]
    simp [readTracking, standsClear_iff, imp_iff_not_or]
  · rw [decide_eq_true_eq]
    simp [readProduct]
  · rename_i h0 h1 h2
    simp_all

/-- The lock of step 4 is the one of R187. -/
theorem State.writeLocked_iff (s : State) (table : Nat) : s.writeLocked table = true ↔ s.Locked table := by
  simp [State.writeLocked, State.Locked, and_comm]

/-- The refusal of step 5 is the one of R186, R189 and R190. -/
theorem State.writeInUse_iff (s : State) (table index : Nat) : s.writeInUse table index = true ↔ s.InUse table index := by
  have any (p : ShellContext → Bool) : s.anyCtx p = true ↔ ∃ slot c, s.ctx slot = some c ∧ p c = true := by
    simp [State.anyCtx, Option.any_eq_true, Fin.exists_fin_two]
  unfold State.InUse State.writeInUse
  split
  · simp [State.someLive, any]
  · simp [State.someLive, any]
  · simp [any, ShellContext.productBound]
  · simp [any, ShellContext.curveBound, Option.any_eq_true, and_assoc]
  · simp_all

end Sys2Proof.Machine
end

