-- ==== Sys2Proof/Laws/WallMap.lean ====
section
/-! SUPPORT. What the window's searches find and what closings do to it (R107, R114, R117 to R119). -/

namespace Sys2Proof.Machine

/-- The fold that seeks the lowest record ends at one that is no higher than any it met. -/
theorem foldl_lowerOf (l : List OpenSegment) (a : OpenSegment) :
    ∃ v, l.foldl lowerOf (some a) = some v ∧ v ∈ a :: l ∧ ∀ r ∈ a :: l, v.index ≤ r.index := by
  induction l generalizing a with
  | nil => exact ⟨a, rfl, by simp, by simp⟩
  | cons x xs ih =>
    simp only [List.foldl_cons, lowerOf]
    split
    · obtain ⟨v, h1, h2, h3⟩ := ih x
      refine ⟨v, h1, List.mem_cons_of_mem _ h2, ?_⟩
      have := h3 x (by simp)
      simp only [List.mem_cons, forall_eq_or_imp] at h3 ⊢
      exact ⟨by omega, h3⟩
    · obtain ⟨v, h1, h2, h3⟩ := ih a
      have := h3 a (by simp)
      simp only [List.mem_cons, forall_eq_or_imp] at h2 h3 ⊢
      exact ⟨v, h1, h2.imp id .inr, h3.1, by omega, h3.2⟩

/-- No record is the lowest of a shell exactly when the shell has none open. -/
theorem lowestOpen_none (w : List OpenSegment) (shell : Nat) : lowestOpen w shell = none ↔ ∀ r ∈ w, r.shell ≠ shell := by
  unfold lowestOpen
  cases e : w.filter (fun r => r.shell == shell) with
  | nil => simpa using e
  | cons a l =>
    obtain ⟨u, h, _⟩ := foldl_lowerOf l a
    have mem : a ∈ w ∧ a.shell = shell := by simpa using (e ▸ List.mem_cons_self : a ∈ w.filter fun r => r.shell == shell)
    simp only [List.foldl_cons, lowerOf, h, reduceCtorEq, false_iff, not_forall]
    exact ⟨a, mem.1, fun n => n mem.2⟩

/-- The lowest record is open, of the shell, and no higher than any other of it. -/
theorem lowestOpen_some {w : List OpenSegment} {shell : Nat} {v : OpenSegment} (h : lowestOpen w shell = some v) :
    v ∈ w ∧ v.shell = shell ∧ ∀ r ∈ w, r.shell = shell → v.index ≤ r.index := by
  unfold lowestOpen at h
  cases e : w.filter (fun r => r.shell == shell) with
  | nil => simp [e] at h
  | cons a l =>
    have mem : ∀ r, r ∈ w ∧ r.shell = shell ↔ r ∈ a :: l := by intro r; rw [← e]; simp
    obtain ⟨u, h1, h2, h3⟩ := foldl_lowerOf l a
    simp only [e, List.foldl_cons, lowerOf, h1] at h
    cases h
    exact ⟨((mem v).2 h2).1, ((mem v).2 h2).2, fun r hr hs => h3 r ((mem r).1 ⟨hr, hs⟩)⟩

/-- With distinct keys, a record of the shell that is no higher than any other of it is the lowest. -/
theorem lowestOpen_eq {w : List OpenSegment} {shell : Nat} {v : OpenSegment} (keys : (w.map fun r => (r.shell, r.index)).Nodup)
    (hv : v ∈ w) (hs : v.shell = shell) (low : ∀ r ∈ w, r.shell = shell → v.index ≤ r.index) : lowestOpen w shell = some v := by
  cases e : lowestOpen w shell with
  | none => exact absurd hs ((lowestOpen_none w shell).1 e v hv)
  | some u =>
    obtain ⟨h1, h2, h3⟩ := lowestOpen_some e
    exact congrArg some (List.inj_on_of_nodup_map keys h1 hv (by rw [h2, hs, Nat.le_antisymm (h3 v hv hs) (low u h1 h2)]))

/-- A closing takes the record of its key from the window and leaves the others (R118). -/
theorem State.closeSegment_window (s : State) (r : OpenSegment) (early : Bool) :
    (s.closeSegment r early).wmb.window = s.wmb.window.filter fun x => !x.hasKey r.shell r.index := by
  unfold State.closeSegment
  split
  · rfl
  · simp only [State.setCtx, State.setMtr, State.offerSegment]
    split <;> rfl

/-- A live context stays live through closings (R118). -/
theorem State.closeSegment_live (s : State) (r : OpenSegment) (early : Bool) (i : Fin 2) (h : (s.ctx i).isSome = true) :
    ((s.closeSegment r early).ctx i).isSome = true := by
  unfold State.closeSegment
  split
  · exact h
  · dsimp only
    by_cases e : i = r.slot
    · subst e; simp
    · rw [State.setCtx_ctx_other _ _ e]
      unfold State.offerSegment
      split <;> exact h

/-- A run of closings closes every record of the shell that passes the test, the lowest first, when a lower index passes wherever a higher
one does (R117, R119). -/
theorem State.closeRun_eq (shell : Nat) (test : Nat → Bool) (mono : ∀ a b, a ≤ b → test b = true → test a = true) (fuel : Nat) (s : State)
    (enough : s.wmb.window.length ≤ fuel) (keys : (s.wmb.window.map fun r => (r.shell, r.index)).Nodup) :
    ∃ past : List OpenSegment, (∀ r, r ∈ past ↔ r ∈ s.wmb.window ∧ r.shell = shell ∧ test r.index = true)
      ∧ past.Pairwise (fun a b => a.index < b.index)
      ∧ s.closeRun shell test fuel = past.foldl (fun a r => a.closeSegment r false) s := by
  induction fuel generalizing s with
  | zero =>
    have : s.wmb.window = [] := List.eq_nil_of_length_eq_zero (by omega)
    exact ⟨[], by simp [this], .nil, rfl⟩
  | succ n ih =>
    unfold State.closeRun
    cases e : lowestOpen s.wmb.window shell with
    | none =>
      have none_ := (lowestOpen_none _ _).1 e
      exact ⟨[], fun r => by simpa using fun a b => absurd b (none_ r a), .nil, rfl⟩
    | some v =>
      obtain ⟨h1, h2, h3⟩ := lowestOpen_some e
      dsimp only
      by_cases ht : test v.index = true
      · rw [if_pos ht]
        have hw := s.closeSegment_window v false
        have fewer : (s.wmb.window.filter fun x => !x.hasKey v.shell v.index).length < s.wmb.window.length :=
          List.length_filter_lt_length_iff_exists.2 ⟨v, h1, by simp [OpenSegment.hasKey]⟩
        obtain ⟨past, p1, p2, p3⟩ := ih (s.closeSegment v false) (by rw [hw]; omega)
          (by rw [hw]; exact keys.sublist (List.filter_sublist.map _))
        refine ⟨v :: past, ?_, .cons ?_ p2, by simpa using p3⟩
        · intro r
          rw [List.mem_cons, p1, hw, List.mem_filter]
          constructor
          · rintro (rfl | ⟨⟨a, _⟩, b, c⟩)
            exacts [⟨h1, h2, ht⟩, ⟨a, b, c⟩]
          · rintro ⟨a, b, c⟩
            by_cases er : r = v
            · exact .inl er
            · refine .inr ⟨⟨a, ?_⟩, b, c⟩
              simp only [OpenSegment.hasKey, Bool.not_eq_true', Bool.and_eq_false_iff, beq_eq_false_iff_ne]
              exact .inr fun ei => er (List.inj_on_of_nodup_map keys a h1 (by rw [b, h2, ei]))
        · intro r hr
          obtain ⟨a, b, _⟩ := (p1 r).1 hr
          rw [hw, List.mem_filter] at a
          refine lt_of_le_of_ne (h3 r a.1 b) fun q => ?_
          simp [OpenSegment.hasKey, b, h2, q] at a
      · rw [if_neg ht]
        refine ⟨[], fun r => ?_, .nil, rfl⟩
        simp only [List.not_mem_nil, false_iff]
        rintro ⟨a, b, c⟩
        exact ht (mono _ _ (h3 r a b) c)

end Sys2Proof.Machine
end

