-- ==== Sys2Proof/Tests/Slice0.lean ====
section
/-! SUPPORT. The model's own tests. Expected values come from the spec's worked examples and tables, named at each test; then one
witness for each obligation with hypotheses: a state and operands that meet them together. -/

namespace Sys2Proof.Tests

open Sys2Proof Sys2Proof.Machine Host

-- the kernel evaluates these theorems one after another: side by side they ask for more threads than the checker's memory limit allows
set_option Elab.async false

/-! ### Helpers -/

/-- The next state of a command, when it has one. -/
def after (i : Instr) (s : State) : Option State :=
  match exec i s with
  | .next s' => some s'
  | .fault _ => none
  | .refused _ => none

/-- The answer that a command leaves: in the slot while another frame is in transmission, and else in transmission itself (R157). -/
def answerOf (i : Instr) (s : State) : Option LineFrame :=
  (after i s).bind fun s' => s'.lcp.slot.or s'.lcp.upTx

/-- The payload of that answer, as numbers: the status code and the data. -/
def answer (i : Instr) (s : State) : Option (List Nat) :=
  (answerOf i s).map fun f => f.payload.map BitVec.toNat

/-- A command from the line computer to a station at address 0. -/
def header : CommandHeader := ⟨0, 254, 7⟩

/-- A head entry at a distance, with the figures of 3.9.2. -/
def headAtDistance (distance : Nat) : HeadEntry := ⟨true, 1024, distance, 16000, 1311, 1000⟩

/-- The tracking record of 4.10.1, with the gap limit of 4.10.2 and the hold distance of 4.10.3. -/
def tracking : Tracking := ⟨3277, 1500, 8, 20000, 100, 800⟩

/-- The product of 1.8.1, with 200 mm segments of 16 sectors (4.10.2). -/
def product : Product := ⟨22000, 1800, 2500, 2, 16, 200, 15000, 30000, 800, 60, 3, 80, 4⟩

/-- The schedule of 2.8.2. -/
def list : ListPart :=
  ⟨#[.shot 100 0 1 0 0 false, .shot 400 3 2 1 1 true, .fin 1000, .none, .none, .none, .none, .none], rfl⟩

/-- The tables of 2.8.2: heads 0 and 3, a round of four cycles, two window profiles. -/
def tables : Tst :=
  { Tst.reset with
    heads := (Tst.reset.heads.set 0 (some (headAtDistance 1800))).set 3 (some (headAtDistance 1900))
    tracking := some tracking
    header := some 4
    lists := Tst.reset.lists.set 0 (some list)
    profiles := (Tst.reset.profiles.set 0 (some ⟨300, 600⟩)).set 1 (some ⟨400, 2500⟩) }

/-- An ACTIVE head after its enabling. -/
def activeHead : HeadRecord := { HeadRecord.reset with state := .active }

/-- A station with those tables, heads 0 and 3 ACTIVE. -/
def fitted : State :=
  { State.reset with
    tst := tables
    hcu := { Hcu.reset with heads := (Hcu.reset.heads.set 0 activeHead).set 3 activeHead } }

/-- The station in the first cycle of a run from part time 50000 (2.8.2). -/
def running : State :=
  { fitted with
    fsc := { Fsc.reset with state := .running, cycleStart := 50000, round := 1, tallies := [⟨1, 0, 0, 0, 0, false⟩] } }

/-- The running station in a cycle count, from a place in the list. -/
def inCycle (count place : Nat) : State :=
  { running with fsc := { running.fsc with cycleCount := count, place := place } }

/-- The running station with a fire of head 0 outstanding: sequence 5, until part time 50400. -/
def fired (kind : FireKind) : State :=
  { running with
    fsc := { running.fsc with
      records := running.fsc.records.set 0 (.outstanding 5 kind 50400 1)
      tallies := [⟨1, 1, 0, 0, 0, false⟩] } }

/-- A STATUS command frame to an address. -/
def frameTo (dest : Byte) : LineFrame := ⟨dest, 254, 1, 9, [8]⟩

/-- A station with a number of frames in either forward buffer. -/
def buffered (n : Nat) : State :=
  { State.reset with lcp := { State.reset.lcp with down := List.replicate n (frameTo 9), up := List.replicate n (frameTo 254) } }

/-- A station with a frame in transmission on either line, a full answer slot, and a number of frames in either buffer. -/
def answering (n : Nat) : State :=
  { buffered n with lcp := { (buffered n).lcp with upTx := some (frameTo 254), downTx := some (frameTo 9), slot := some (frameTo 254) } }

/-- A station with a RESTART pending. -/
def restarting (progress : AnswerProgress) : State := { State.reset with cmu := { Cmu.reset with state := .restartPending progress } }

/-- A station in a schedule state. -/
def inState (x : ScheduleState) : State := { fitted with fsc := { fitted.fsc with state := x } }

/-- A shell context of shell 41, product 0 (4.10.2, slot 0). -/
def shell (phase : Phase) : ShellContext :=
  { phase := phase, shell := 41, product := 0, grade := some 2, encA := 400000, rhoA := 1200, scale := 3262, encTail := none
    length := none, heldTemp := none, boundary := 0, summary := Summary.zero
    flags := ⟨false, false, false, false, false, false, false, false⟩ }

/-- The station with that shell MEASURING in slot 0. -/
def measuring : State :=
  { fitted with
    tst := { tables with products := tables.products.set 0 (some product) }
    mtr := { fitted.mtr with contexts := fitted.mtr.contexts.set 0 (some (shell .measuring)), shellCounter := 42 }
    rqu := { Rqu.reset with reservations := 1 } }

/-- A shot report's payload: sequence, kind, shot time, temperature 1137, flags and echoes (R204). -/
def shotPayload (seq kind : Byte) (time : Nat) (flags : Byte) (echoes : List (Nat × Nat)) : Bytes :=
  [seq, kind] ++ be32 time ++ be16 1137 ++ [flags, byteOf echoes.length] ++ echoes.flatMap fun e => be32 (4096 * e.1 + e.2)

/-- A motion report's payload: time, count, rotation, flags (R205). -/
def motionPayload (tau enc rho : Nat) (flags : Byte) : Bytes :=
  be32 tau ++ be32 enc ++ be16 rho ++ [flags]

/-- The echoes of the calibration case (3.9.2). -/
def calEchoes : List (Nat × Nat) := [(2410, 600), (3000, 3100), (18984, 2800), (34970, 1900)]

/-- A state that holds one motion sample at part time 1000000. -/
def sampled (s : State) : State := { s with mtr := { s.mtr with history := [⟨1000000, 500000, 4000⟩] } }

/-- The station with a pending change of a gate line begun at part time 700, its settled level the opposite of `line`. -/
def changing (line : GateLine) (high : Bool) : State :=
  State.reset.setFilter line ⟨high, !high, some ⟨700, 800⟩⟩

/-! ### WellFormed refuses -/

theorem test_illFormed_args : (Instr.status 0 header (List.replicate 248 0)).wellFormed = false := by decide +kernel
theorem test_wellFormed_args : (Instr.status 0 header (List.replicate 247 0)).wellFormed = true := by decide +kernel
theorem test_illFormed_restart : (Instr.restart 0 header [] ⟨false, true, false⟩).wellFormed = false := by decide
theorem test_illFormed_shot_node :
    (Instr.shotReport 0 0 []).wellFormed = false ∧ (Instr.shotReport 0 9 []).wellFormed = false := by decide
theorem test_illFormed_motion_node : (Instr.motionReport 0 13 (motionPayload 1 2 3 0)).wellFormed = false := by decide
theorem test_illFormed_unknown_kind :
    (Instr.headLinkUnknownKind 0 8 3 []).wellFormed = false ∧ (Instr.headLinkUnknownKind 0 14 4 []).wellFormed = false := by decide
theorem test_illFormed_payload :
    (Instr.upstreamFrameArrival 0 ⟨0, 254, 1, 0, List.replicate 249 0⟩).wellFormed = false := by decide +kernel
theorem test_illFormed_good_line_frame :
    (Instr.lineFrameCheck 0 .upstream (lineBytes (frameTo 0))).wellFormed = false := by decide +kernel
theorem test_illFormed_good_head_frame :
    (Instr.headFrameCheck 0 (headBytes ⟨14, 4, motionPayload 1 2 3 0⟩)).wellFormed = false := by decide +kernel

/-! ### Worked examples of the spec -/

/-- R201: the check code of the nine characters 123456789 is 0x29B1. -/
theorem test_crc_check_value : crc16 [0x31, 0x32, 0x33, 0x34, 0x35, 0x36, 0x37, 0x38, 0x39] = 0x29B1 := by decide +kernel

/-- The grade curve of 1.8.1, flat outside points 28 and 29. -/
def curve : List GradePoint :=
  List.replicate 28 ⟨50000, 65000⟩ ++ [⟨49600, 64630⟩, ⟨49300, 64600⟩] ++ List.replicate 3 ⟨49300, 64600⟩

/-- The echo case of 1.8.1, with an amplitude for the last echo. -/
def echoCase (last : Nat) : EvalInput :=
  ⟨[⟨12000, 2900⟩, ⟨21800, 2500⟩, ⟨39410, 1900⟩, ⟨39920, 300⟩, ⟨57060, last⟩], 1137, false, none, 65601, product, curve⟩

/-- 1.8.1 and 1.8.2: confirmed 21520, unconfirmed 21495. -/
theorem test_wall_of_echo_case :
    evaluate (echoCase 1200) = .good 21520 ∧ evaluate (echoCase 700) = .good 21495 := by decide +kernel

/-- 1.8.5: where the rejection falls. -/
theorem test_wall_rejections :
    evaluate { echoCase 1200 with product := { product with ampMin := 2600 } } = .noEcho
    ∧ evaluate { echoCase 1200 with product := { product with ampMin := 2000 } } = .noPair
    ∧ evaluate { echoCase 1200 with product := { product with wallLo := 25000 } } = .noPair
    ∧ evaluate { echoCase 1200 with temp := 65535 } = .noTemperature
    ∧ evaluate { echoCase 1200 with temp := 65535, energyLow := true } = .lowEnergy := by decide +kernel

/-- 3.9.2: the calibration case and its variants. -/
theorem test_calibration_case :
    let echoes : List Echo := calEchoes.map fun e => ⟨e.1, e.2⟩
    calibration (headAtDistance 0) 65601 false echoes = (65602, .ok)
    ∧ calibration { headAtDistance 0 with limit := 40 } 65601 false echoes = (65576, .clamped)
    ∧ calibration { headAtDistance 0 with threshold := 3000 } 65601 false echoes = (65601, .failed)
    ∧ calibration { headAtDistance 0 with threshold := 500 } 65601 false echoes = (66847, .clamped) := by decide +kernel

/-- 4.10.1: the scale at gate B. -/
theorem test_scale_at_gate_b :
    measuredScale tracking 30140 = some 3262 ∧ measuredScale tracking 28000 = none ∧ measuredScale tracking 0 = none := by
  decide +kernel

/-- 4.10.2: the motion at the shot, and the shot's place: segment 15, sector 8, x 3180. -/
theorem test_placement :
    motionIn (⟨1000000, 500000, 4000⟩, ⟨1005000, 500100, 4⟩) 1003200 = ⟨500064, 4064⟩
    ∧ shotOn (shell .measuring) 1800 500064 = some 3180 ∧ 3180 / product.segLength = 15
    ∧ sectorOf 1024 4064 1200 16 = 8 ∧ shotOn { shell .measuring with length := some 3100 } 1800 500064 = none := by
  decide +kernel

/-- R70: a quotient of -0.5 rounds to -1. -/
theorem test_interpolation_tie : motionIn (⟨0, 7, 7⟩, ⟨2, 6, 6⟩) 1 = ⟨6, 6⟩ := by decide +kernel

/-- 4.10.3, step 3: the length of shell 41 is 6000 mm. -/
theorem test_length_at_tail :
    ((shell .measuring).tailed 520550 false).length = some 6000 ∧ ((shell .measuring).tailed 520550 false).phase = .tailing := by
  decide +kernel

/-! ### Commands -/

/-- R197: an unloaded entry reads as flags 0 and zeros. -/
theorem test_read_unloaded : answer (.readTable 0 header [4, 0]) State.reset = some [0, 4, 0, 0, 0] := by decide +kernel
theorem test_read_bad_table : answer (.readTable 0 header [10, 0]) State.reset = some [2] := by decide +kernel

/-- 10.10.2: heads in position: a gate at 2000 is refused while a head stands at 1800. -/
theorem test_write_gate_inside_heads :
    answer (.writeTable 0 header ([1, 0] ++ trackingBytes { tracking with gateDist := 2000 })) fitted = some [4] := by decide +kernel
theorem test_write_header : (after (.writeTable 0 header [4, 0, 6]) fitted).map (fun s => s.tst.header) = some (some 6) := by
  decide +kernel

/-- 2.8.2: START sends the first cycle mark, count 0 at part time 50000. -/
theorem test_start_marks_first_cycle :
    (after (.start 50000 header []) fitted).map (fun s => (s.fsc.state, s.hlp.queue))
      = some (.running, [⟨0, 1, [0, 0, 0, 0xC3, 0x50]⟩]) := by decide +kernel
/-- R27, R28: an unloaded header is the offending index 255. -/
theorem test_start_without_header : answer (.start 0 header []) State.reset = some [9, 255] := by decide +kernel

theorem test_stop_running : (after (.stop 0 header []) running).map (fun s => s.fsc.state) = some .stopping := by decide +kernel

theorem test_announce_full :
    answer (.announce 0 header [3]) { State.reset with mtr := { State.reset.mtr with announce := [5, 7, 5, 7] } } = some [7] := by
  decide +kernel

theorem test_request_cal_disabled : answer (.requestCal 0 header [1]) fitted = some [4] := by decide +kernel

/-- 8.9.1: the answer comes from the new address. -/
theorem test_set_address_source :
    (answerOf (.setAddress 0 header [1]) State.reset).map (fun f => f.source) = some 1 := by decide +kernel

theorem test_set_scratch_old_value :
    answer (.setScratch 0 header [1, 0x12, 0x34]) { State.reset with cmu := { Cmu.reset with scratch1 := 7 } } = some [0, 0, 7] := by
  decide +kernel

theorem test_clear_capture_empties :
    (after (.clearCapture 0 header []) { State.reset with cmu := { Cmu.reset with capture := some ⟨.duplicateShot, .head 1, 9, 1⟩, more := true } }).map
      (fun s => (s.cmu.capture, s.cmu.more)) = some (none, false) := by decide +kernel

/-- R169, R208: a status code and 114 bytes. -/
theorem test_status_length : (answer (.status 0 header []) State.reset).map List.length = some 115 := by decide +kernel

/-- R157, R178: the answer is in transmission at once on an idle line, and waits on a busy one. -/
theorem test_restart_waits :
    (after (.restart 0 header [] Cut.nothing) State.reset).map (fun s => s.cmu.state) = some (.restartPending .sending)
    ∧ (after (.restart 0 header [] Cut.nothing) { State.reset with lcp := { State.reset.lcp with upTx := some (frameTo 254) } }).map
      (fun s => s.cmu.state) = some (.restartPending .waiting) := by decide +kernel

/-- R28, R157: a START that fails raises its notices before its answer is formed, so an idle line takes the notice (kinds 65: LEVEL_CHANGE
and SCHEDULE_HALTED; level 3) and the answer waits. -/
theorem test_failed_start_notice_first :
    (after (.start 0 header []) State.reset).map (fun s => (s.lcp.upTx.map LineFrame.kind, (s.lcp.upTx.map LineFrame.payload).map (List.take 2),
      s.lcp.slot.map LineFrame.payload)) = some (some 5, some [65, 3], some [9, 255]) := by decide +kernel

/-! ### Events -/

/-- 2.8.2: the first firing point issues sequence 0 to head 0 and its window ends at 50400. -/
theorem test_firing_point_window :
    (after (.firingPoint 0) running).map (fun s => s.fire 0) = some (.outstanding 0 .measure 50400 1) := by decide +kernel

/-- 2.8.2: cycle 1 starts at 51000. -/
theorem test_cycle_end_starts_next :
    (after .cycleEnd running).map (fun s => (s.fsc.cycleCount, s.fsc.cycleStart)) = some (1, 51000) := by decide +kernel

theorem test_window_expiry_counts_miss :
    (after (.replyWindowExpiry 0) (fired .measure)).map (fun s => ((s.head 0).miss, s.fire 0, s.partTime))
      = some (1, .expired 5 .measure, 50400) := by decide +kernel

/-- 3.9.2 through the part: k becomes 65602. -/
theorem test_calibrate_report :
    (after (.shotReport 50300 1 (shotPayload 5 1 50100 0 calEchoes)) (fired .calibrate)).map (fun s => ((s.head 0).k, (s.head 0).cal))
      = some (65602, .ok) := by decide +kernel

theorem test_shot_unsolicited :
    (after (.shotReport 50300 2 (shotPayload 5 0 50100 0 [])) running).bind (fun s => s.cmu.capture)
      = some ⟨.unsolicited, .head 1, 50300, 5⟩ := by decide +kernel

theorem test_motion_fault_discarded :
    (after (.motionReport 9 14 (motionPayload 1000 2 3 1)) State.reset).map (fun s => s.mtr.history) = some [] := by decide +kernel

/-- 4.10.3, step 4 in the other slot: a resolved rise takes the counter's number. -/
theorem test_gate_a_rise_numbers_shell :
    ((State.gateARise { measuring with mtr := { measuring.mtr with contexts := measuring.mtr.contexts.set 0 (some (shell .tailing)) } }
      9 ⟨560000, 0⟩ false).ctx 1).map (fun c => (c.shell, c.phase, c.encA)) = some (42, .entering, 560000) := by decide +kernel

theorem test_gate_filter_holds_edge :
    (after (.gateFilterExpiry .a) (changing .a true)).map (fun s => (s.rsq.items, s.partTime))
      = some ([.gate ⟨.a, true, 700⟩], 1500) := by decide +kernel

theorem test_gate_glitch :
    (after (.gateLineChange 900 .a false) (changing .a true)).map (fun s => s.mtr.gateA.pending) = some none := by decide +kernel

theorem test_line_frame_check :
    (after (.lineFrameCheck 5 .upstream [0, 254, 1]) State.reset).bind (fun s => s.cmu.capture)
      = some ⟨.lineFrameCheck, .upstream, 5, 3⟩ := by decide +kernel

theorem test_head_frame_check :
    (after (.headFrameCheck 5 [1, 3]) State.reset).bind (fun s => s.cmu.capture) = some ⟨.headFrameCheck, .headLink, 5, 2⟩ := by
  decide +kernel

/-- R159: a waiting transmitter takes the first frame entered at once, and the next waits. -/
theorem test_forward_downstream :
    ((after (.upstreamFrameArrival 0 (frameTo 9)) State.reset).bind (after (.upstreamFrameArrival 1 (frameTo 7)))).map
      (fun s => (s.lcp.downTx, s.lcp.down)) = some (some (frameTo 9), [frameTo 7]) := by decide +kernel

theorem test_restart_effect_needs_pending :
    (after (.restartTakesEffect 4 Cut.nothing) running).map (fun s => s.fsc.state) = some .running := by decide +kernel

theorem test_cold_reset_clears_scratch :
    (after (.coldReset 4 Cut.nothing) { fitted with cmu := { Cmu.reset with scratch0 := 9 } }).map
      (fun s => (s.cmu.scratch0, s.tst.header, s.rstHigh)) = some (0, none, false) := by decide +kernel

/-! ### Witnesses: the machine and its resets -/

theorem witness_StepTakesFrontOrTicks :
    ({ State.reset with pending := [.cycleEnd] } : State).pending = .cycleEnd :: [] ∧ State.reset.pending = [] := by decide
theorem witness_CommandsLeaveTheQueue : (after .cycleEnd running).isSome = true := by decide +kernel
theorem witness_HeldWhileRstLow : ({ State.reset with rstHigh := false } : State).rstHigh = false := by decide
theorem witness_RestartTakesEffect :
    ((restarting .sending).rstHigh = true ∧ (restarting .sending).cmu.state = .restartPending .sending ∧ (restarting .sending).lcp.up = [])
    ∧ (let s : State := { restarting .sending with lcp := (buffered 1).lcp }
      s.rstHigh = true ∧ s.cmu.state = .restartPending .sending ∧ s.lcp.up = frameTo 254 :: [])
    ∧ ((restarting .sent).rstHigh = true ∧ (restarting .sent).cmu.state = .restartPending .sent) := by decide +kernel

/-! ### Witnesses: commands -/

/-- Of every statement whose premise is that the command is taken, and STATUS, CLEAR_CAPTURE and an addressed RESTART among them. -/
theorem witness_StatusAnswers : State.reset.takes header = true ∧ fitted.takes header = true := by decide +kernel

theorem witness_ReadTableAnswers :
    fitted.takes header = true ∧ 9 < (10 : Byte).toNat ∧ ((9 : Byte).toNat ≤ 9 ∧ maxIndex 9 < (1 : Byte).toNat)
    ∧ ((3 : Byte).toNat ≤ 9 ∧ (23 : Byte).toNat ≤ maxIndex 3) := by decide +kernel

theorem witness_WriteProductStores :
    fitted.takes header = true ∧ product.inRange = true ∧ product.wallLo < product.wallHi ∧ product.nominalWall ≤ 65535
    ∧ product.lowerTol ≤ 65535 ∧ product.upperTol ≤ 65535
    ∧ (∀ slot c, fitted.ctx slot = some c → c.flags.noProduct = true ∨ c.product ≠ 15) := by
  refine ⟨by decide +kernel, by decide +kernel, by decide, by decide, by decide, by decide, ?_⟩
  intro slot c h
  have : ∀ i, fitted.ctx i = none := by decide +kernel
  rw [this] at h
  cases h

/-- A grade part, its points at either end of their ranges. -/
def gradePart : GradePart := (Vector.replicate 11 ⟨30000, 65535⟩).set 0 ⟨65000, 49152⟩

/-- The parts of curve 0 and of curve 7 beside a live shell bound to curve 2, and a part of curve 2 beside one without a curve; calibration
setups at either end of the interval's range. -/
theorem witness_WriteProductStores_parts :
    (measuring.takes header = true
      ∧ (∀ x ∈ gradePart.toList, 30000 ≤ x.velocity ∧ x.velocity ≤ 65000 ∧ 49152 ≤ x.shrink ∧ x.shrink ≤ 65535)
      ∧ ∀ slot, ∀ c ∈ measuring.ctx slot, ∀ curve ∈ c.grade, curve.val ≠ (0 : Fin 24).val / 3 ∧ curve.val ≠ (23 : Fin 24).val / 3)
    ∧ (∀ slot, ∀ c ∈ (measuring.setCtx 0 (some { shell .measuring with flags := { (shell .measuring).flags with noGrade := true } })).ctx slot,
      c.flags.noGrade = true)
    ∧ ((⟨3600, true⟩ : CalSetup).interval ≤ 3600 ∧ (⟨0, false⟩ : CalSetup).interval ≤ 3600) := by decide +kernel

/-- In STOPPED, with no shell live, the other six tables: the gate distance just below the nearest enabled head, the header and the share at
either end of their ranges, the list of 2.8.2, a profile at both ends; and the same states of the schedule in HALTED. -/
theorem witness_WriteProductStores_tables :
    (fitted.takes header = true ∧ fitted.ctx 0 = none ∧ fitted.ctx 1 = none
      ∧ ({ tracking with gateDist := 1799 } : Tracking).inRange = true
      ∧ ∀ i, fitted.enabled i = true → 1799 < (fitted.headEntry i).distance ∧ (fitted.headEntry i).distance ≤ 1799 + 8000)
    ∧ (fitted.fsc.state = .stopped ∧ (inState .halted).takes header = true ∧ (inState .halted).fsc.state = .halted)
    ∧ (1 ≤ (1 : Byte).toNat ∧ (48 : Byte).toNat ≤ 48)
    ∧ (∀ e ∈ list.toList, e.offset ≤ 60000
      ∧ ∀ o head period phase w steal, e = .shot o head period phase w steal → period ∈ [1, 2, 3, 4, 6, 8, 12, 16] ∧ phase ≤ 15)
    ∧ (20 ≤ (⟨20, 5000⟩ : Profile).measure ∧ (⟨20, 5000⟩ : Profile).calibrate ≤ 5000)
    ∧ (1 ≤ (1 : Byte).toNat ∧ (15 : Byte).toNat ≤ 15) := by
  refine ⟨by decide +kernel, by decide +kernel, by decide, ?_, by decide, by decide⟩
  intro e he
  refine ⟨(by decide +kernel : ∀ e ∈ list.toList, e.offset ≤ 60000) e he, ?_⟩
  rintro o head period phase w steal rfl
  simp [list] at he
  rcases he with ⟨_, _, rfl, rfl, _⟩ | ⟨_, _, rfl, rfl, _⟩ <;> decide

/-- R193: a write of part 0 clears parts 1 and 2 of its curve. -/
theorem test_write_grade_part_zero :
    (after (.writeTable 0 header ([3, 6] ++ gradePartBytes gradePart)) { State.reset with tst :=
      { Tst.reset with grades := Vector.replicate 24 (some gradePart) } }).map (fun s => (List.range 5).map fun i => s.tst.loaded 3 (5 + i))
      = some [true, true, false, false, true] := by decide +kernel

theorem witness_WriteHeadEnables :
    fitted.takes header = true ∧ fitted.fsc.state = .stopped ∧ fitted.ctx 0 = none ∧ fitted.ctx 1 = none
    ∧ (headAtDistance 9500).enabled = true ∧ (headAtDistance 9500).inRange = true
    ∧ (∀ x ∈ fitted.tst.tracking, x.gateDist < (headAtDistance 9500).distance ∧ (headAtDistance 9500).distance ≤ x.gateDist + 8000)
    ∧ (fitted.head 7).state = .disabled := by decide +kernel

/-- An ACTIVE head that the entry disables, with a request that names it and with none, and one that it leaves enabled; the request is then
cleared and the pointer moves to head 0, the next enabled (R62). -/
theorem witness_WriteHeadEnables_disables :
    (let s : State := { fitted with hcu := { fitted.hcu with request := some 3 } }
      let e := { headAtDistance 1900 with enabled := false }
      s.takes header = true ∧ s.ctx 0 = none ∧ s.ctx 1 = none ∧ e.inRange = true ∧ (s.head 3).state ≠ .disabled ∧ e.enabled = false
      ∧ s.hcu.request = some 3
      ∧ (after (.writeTable 0 header ([0, 3] ++ headEntryBytes e)) s).map (fun s' => (s'.hcu.request, s'.hcu.pointer, s'.enabled (3 + 1 + 4)))
        = some (none, 0, true))
    ∧ fitted.hcu.request ≠ some 3
    ∧ ¬ ((fitted.head 3).state = .disabled) ∧ (headAtDistance 1900).enabled = true := by decide +kernel

/-- Each refusal in turn, at the first value that fails. -/
theorem witness_WriteRefused :
    State.reset.takes header = true ∧ State.reset.writeRefusal (10 : Byte).toNat (0 : Byte).toNat [] = some .badTable
    ∧ 9 < (10 : Byte).toNat ∧ maxIndex (9 : Byte).toNat < (1 : Byte).toNat
    ∧ ((15 : Byte).toNat ≤ maxIndex (2 : Byte).toNat ∧ (productBytes product ++ [0]).length ≠ contentsLength (2 : Byte).toNat) := by
  decide +kernel

/-- LOCKED: the head table and the profiles in RUNNING, whether or not a shell is live. -/
theorem witness_WriteRefused_locked :
    (running.takes header = true ∧ running.Locked 6 ∧ (3 : Byte).toNat ≤ maxIndex 6 ∧ (be16 300 ++ be16 600).length = contentsLength 6)
    ∧ (running.Locked 0 ∧ (headEntryBytes (headAtDistance 1800)).length = contentsLength 0)
    ∧ (inState .stopping).Locked 4 := by
  refine ⟨⟨by decide +kernel, (State.writeLocked_iff ..).mp ?_, by decide, by decide⟩, ⟨(State.writeLocked_iff ..).mp ?_, by decide⟩,
    (State.writeLocked_iff ..).mp ?_⟩ <;> decide +kernel

/-- IN_USE: beside a live shell bound to product 0 and curve 2, the head table and the tracking record, product 0 and the three parts of
curve 2; product 1 and the parts on either side are free. -/
theorem witness_WriteRefused_inUse :
    measuring.takes header = true
    ∧ (∀ x ∈ [(0, 7), (1, 0), (2, 0), (3, 6), (3, 7), (3, 8)], ¬ measuring.Locked x.1 ∧ measuring.InUse x.1 x.2)
    ∧ ∀ x ∈ [(2, 1), (3, 5), (3, 9)], ¬ measuring.InUse x.1 x.2 := by
  simp only [← State.writeLocked_iff, ← State.writeInUse_iff]
  decide +kernel

/-- BAD_VALUE of a field outside its range, the share 16, and of a constraint between tables, a gate distance at the nearest enabled head and
an echo gate that is empty. -/
theorem witness_WriteRefused_value :
    (∀ x ∈ [(9, 0), (1, 0), (2, 0)], ¬ fitted.Locked x.1 ∧ ¬ fitted.InUse x.1 x.2)
    ∧ (¬ FieldsInRange 9 [16] ∧ ([16] : Bytes).length = contentsLength 9)
    ∧ (let c := trackingBytes { tracking with gateDist := 1800 }; FieldsInRange 1 c ∧ ¬ fitted.CrossTable 1 c ∧ c.length = contentsLength 1)
    ∧ (let c := productBytes { product with wallHi := 15000 }; FieldsInRange 2 c ∧ ¬ fitted.CrossTable 2 c ∧ c.length = contentsLength 2) := by
  refine ⟨?_, ⟨?_, by decide⟩, ⟨?_, ?_, by decide⟩, ?_, ?_, by decide⟩
  · simp only [← State.writeLocked_iff, ← State.writeInUse_iff]
    decide +kernel
  · exact mt (contentsInRange_iff 9 (by decide) _).mpr (by decide +kernel)
  · exact (contentsInRange_iff 1 (by decide) _).mp (by decide +kernel)
  · exact mt (State.contentsConsistent_iff ..).mpr (by decide +kernel)
  · exact (contentsInRange_iff 2 (by decide) _).mp (by decide +kernel)
  · exact mt (State.contentsConsistent_iff ..).mpr (by decide +kernel)

/-- The first table, the list and the last table, each at its highest index. -/
theorem witness_StoredContentsReadBack :
    (7 ≤ maxIndex 0 ∧ (headEntryBytes (headAtDistance 13000)).length = contentsLength 0
      ∧ contentsInRange 0 (headEntryBytes (headAtDistance 13000)) = true ∧ contentsCanonical 0 (headEntryBytes (headAtDistance 13000)) = true)
    ∧ (5 ≤ maxIndex 5 ∧ (listPartBytes list).length = contentsLength 5
      ∧ contentsInRange 5 (listPartBytes list) = true ∧ contentsCanonical 5 (listPartBytes list) = true)
    ∧ (0 ≤ maxIndex 9 ∧ ([15] : Bytes).length = contentsLength 9 ∧ contentsInRange 9 [15] = true ∧ contentsCanonical 9 [15] = true) := by
  decide +kernel

theorem fitted_shot0 : fitted.ShotPasses 4 0 :=
  ⟨100, 0, 1, 0, 0, false, by decide +kernel, by decide +kernel, by decide +kernel, by decide, by decide, by decide +kernel⟩

theorem fitted_shot1 : fitted.ShotPasses 4 1 :=
  ⟨400, 3, 2, 1, 1, true, by decide +kernel, by decide +kernel, by decide +kernel, by decide, by decide, by decide +kernel⟩

/-- The schedule of 2.8.2 is valid, in STOPPED. -/
theorem fitted_valid : fitted.ScheduleValid := by
  refine ⟨4, 2, by decide +kernel, by decide, by decide, ⟨1000, by decide +kernel, by decide +kernel, by decide, by decide⟩, ?_, ?_⟩
  · intro n h
    match n, h with
    | 0, _ => exact fitted_shot0
    | 1, _ => exact fitted_shot1
  · have : ∀ n, n < 48 → 2 < n → fitted.entry n = .none := by decide +kernel
    intro n h h'
    exact this n h' h

/-- With the level that R45 gives, and after a halt. -/
theorem witness_StartRunsValidSchedule :
    (fitted.takes header = true ∧ fitted.fsc.state = .stopped ∧ fitted.ScheduleValid ∧ fitted.runningLevel = fitted.fsc.level)
    ∧ (let s : State := { fitted with fsc := { fitted.fsc with state := .halted, level := .config } }
      s.takes header = true ∧ s.fsc.state = .halted ∧ s.ScheduleValid ∧ s.runningLevel ≠ s.fsc.level) :=
  ⟨⟨by decide +kernel, by decide +kernel, fitted_valid, by decide +kernel⟩, by decide +kernel, by decide +kernel, fitted_valid, by decide +kernel⟩

/-- An unloaded header, and a head that is not enabled, in HALTED. -/
theorem witness_StartRefusesInvalidSchedule :
    (State.reset.takes header = true ∧ State.reset.fsc.state = .stopped ∧ State.reset.offending = some 255)
    ∧ (let s : State := { inState .halted with tst := { tables with heads := Tst.reset.heads } }
      s.takes header = true ∧ s.fsc.state = .halted ∧ s.offending = some 0) := by decide +kernel

/-- The station with a list of 48 SHOT entries of head 0, 25 us apart, that all pass. -/
def endless : State :=
  { fitted with tst := { tables with lists := Vector.ofFn fun part : Fin 6 => some (Vector.ofFn fun i : Fin 8 =>
      .shot (25 * (8 * part.val + i.val + 1)) 0 1 0 0 false) } }

/-- A header with entry 0, entry 2 and entry 47 the first that fails, and the list of 48 SHOT entries (R27). -/
theorem witness_ValidationIsR27 :
    fitted.tst.header = some 4 ∧ endless.tst.header = some 4 ∧ endless.offending = some 48
    ∧ ({ fitted with tst := { tables with lists := Tst.reset.lists } } : State).offending = some 0
    ∧ ({ fitted with tst := { tables with lists := tables.lists.set 0 (some (list.set 2 (.fin 424))) } } : State).offending = some 2
    ∧ ({ endless with tst := { endless.tst with lists := endless.tst.lists.set 5 (endless.tst.lists[5].map fun x => x.set 7 .none) } } : State).offending
      = some 47 := by decide +kernel

theorem witness_StopAndResume :
    ((inState .running).takes header = true ∧ (inState .running).fsc.state = .running)
    ∧ ((inState .stopping).takes header = true ∧ (inState .stopping).fsc.state = .stopping)
    ∧ ((inState .halted).takes header = true ∧ (inState .halted).fsc.state = .halted) := by decide +kernel

theorem witness_AnnounceAppends :
    (State.reset.takes header = true ∧ 15 < (16 : Byte).toNat)
    ∧ (let s : State := { State.reset with mtr := { State.reset.mtr with announce := [5, 7, 5, 7] } }
      s.takes header = true ∧ (15 : Byte).toNat ≤ 15 ∧ 4 ≤ s.mtr.announce.length)
    ∧ (let s : State := { State.reset with mtr := { State.reset.mtr with announce := [5, 7, 5] } }
      s.takes header = true ∧ (15 : Byte).toNat = (15 : Fin 16).val ∧ s.mtr.announce.length < 4) := by decide +kernel

theorem witness_RequestCalSets :
    fitted.takes header = true ∧ 7 < (8 : Byte).toNat
    ∧ ((7 : Byte).toNat = (7 : Fin 8).val ∧ fitted.enabled 7 = false)
    ∧ ((3 : Byte).toNat = (3 : Fin 8).val ∧ fitted.enabled 3 = true ∧ fitted.hcu.request = none)
    ∧ (let s : State := { fitted with hcu := { fitted.hcu with request := some 0 } }
      s.takes header = true ∧ s.enabled 3 = true ∧ s.hcu.request ≠ none) := by decide +kernel

theorem witness_SetAddressMoves : State.reset.takes header = true ∧ (253 : Byte).toNat ≤ 253 ∧ 253 < (254 : Byte).toNat := by
  decide +kernel
theorem witness_SetScratchSwaps : State.reset.takes header = true ∧ 1 < (2 : Byte).toNat := by decide +kernel
theorem witness_ClearCaptureEmpties :
    State.reset.takes header = true ∧ State.reset.cmu.capture = none
    ∧ ({ State.reset with cmu := { Cmu.reset with capture := some ⟨.staleShot, .head 0, 1, 2⟩ } } : State).cmu.capture ≠ none := by
  decide +kernel
theorem witness_RestartAnsweredOrAtOnce :
    State.reset.takes header = true
    ∧ ((buffered 7).hearsUpstream = true ∧ ({ header with dest := 255 } : CommandHeader).dest = 255 ∧ (buffered 7).lcp.slot = none
      ∧ (buffered 7).cmu.state = .idle ∧ (buffered 7).lcp.down.length < 8) := by decide +kernel
/-- Overruns on a full slot and on a pending RESTART, of an empty payload and of a broadcast with either number of frames held; broadcasts
that are executed with either. -/
theorem witness_CommandOverrunDrops :
    ((answering 7).hearsUpstream = true ∧ (frameTo 0).kind = 1 ∧ (frameTo 0).dest = (answering 7).lcp.address ∧ (frameTo 0).dest ≠ 255
      ∧ (answering 7).lcp.slot ≠ none ∧ ({ frameTo 0 with payload := [] } : LineFrame).kind = 1)
    ∧ ((restarting .waiting).hearsUpstream = true ∧ (frameTo 0).dest = (restarting .waiting).lcp.address
      ∧ (restarting .waiting).cmu.state ≠ .idle)
    ∧ ((frameTo 255).kind = 1 ∧ (frameTo 255).dest = 255 ∧ (answering 7).lcp.slot ≠ none ∧ (answering 7).lcp.down.length < 8)
    ∧ ((answering 8).hearsUpstream = true ∧ (answering 8).lcp.slot ≠ none ∧ 8 ≤ (answering 8).lcp.down.length)
    ∧ ((buffered 7).hearsUpstream = true ∧ (buffered 7).lcp.slot = none ∧ (buffered 7).cmu.state = .idle ∧ (buffered 7).lcp.down.length < 8)
    ∧ ((buffered 8).hearsUpstream = true ∧ (buffered 8).lcp.slot = none ∧ (buffered 8).cmu.state = .idle
      ∧ ¬ (buffered 8).lcp.down.length < 8) := by decide +kernel
theorem witness_CommandFormChecks :
    State.reset.takes header = true ∧ (0 : Byte).toNat = 0 ∧ 11 < (12 : Byte).toNat
    ∧ (1 ≤ (11 : Byte).toNat ∧ (11 : Byte).toNat ≤ 11 ∧ argsRight (11 : Byte).toNat [0] = false)
    ∧ argsRight (2 : Byte).toNat [0] = false := by decide +kernel

/-! ### Witnesses: the two links -/

theorem witness_UpstreamFramesForwarded :
    ((buffered 7).hearsUpstream = true ∧ (frameTo 254).dest ≠ (buffered 7).lcp.address ∧ (frameTo 254).dest ≠ 255
      ∧ (buffered 7).lcp.down.length < 8)
    ∧ ((buffered 8).hearsUpstream = true ∧ 8 ≤ (buffered 8).lcp.down.length) := by decide +kernel
theorem witness_DownstreamFramesForwarded :
    ((buffered 7).rstHigh = true ∧ (buffered 7).lcp.downDiscarding = false ∧ (buffered 7).lcp.up.length < 8)
    ∧ ((buffered 8).rstHigh = true ∧ (buffered 8).lcp.downDiscarding = false ∧ 8 ≤ (buffered 8).lcp.up.length) := by decide +kernel
theorem witness_UnknownKindsCaptured :
    (State.reset.hearsUpstream = true ∧ ({ frameTo 0 with kind := 2 } : LineFrame).dest = State.reset.lcp.address
      ∧ ({ frameTo 0 with kind := 2 } : LineFrame).kind ≠ 1)
    ∧ ((buffered 7).hearsUpstream = true ∧ ({ frameTo 255 with kind := 2 } : LineFrame).dest = 255
      ∧ ({ frameTo 255 with kind := 2 } : LineFrame).kind ≠ 1 ∧ (buffered 7).lcp.down.length < 8)
    ∧ ((buffered 8).hearsUpstream = true ∧ 8 ≤ (buffered 8).lcp.down.length)
    ∧ (State.reset.hearsHeadLink = true ∧ ¬ ((3 : Byte) = 3 ∧ 1 ≤ (9 : Byte).toNat ∧ (9 : Byte).toNat ≤ 8)
      ∧ ¬ ((3 : Byte) = 4 ∧ (9 : Byte) = 14)) := by decide +kernel
/-- A wrong check code, frames cut short at either end of the range, a length byte of 249, and receivers that are discarding. -/
theorem witness_DamagedFramesDiscarded :
    (State.reset.rstHigh = true ∧ (frameTo 0).payload.length ≤ 248 ∧ (0 : BitVec 16) ≠ crc16 (lineBody (frameTo 0))
      ∧ State.reset.lcp.upDiscarding = false ∧ State.reset.lcp.downDiscarding = false)
    ∧ ((0 : BitVec 16) ≠ crc16 (headBody ⟨1, 3, []⟩) ∧ ([] : Bytes).length ≤ 248 ∧ State.reset.hlp.discarding = false)
    ∧ (1 ≤ 1 ∧ 1 < 7 + (frameTo 0).payload.length ∧ 7 < 7 + (frameTo 0).payload.length)
    ∧ (1 ≤ 4 ∧ 4 < 5 + ([] : Bytes).length)
    ∧ 248 < (249 : Byte).toNat
    ∧ (let s : State := { State.reset with
        hlp := ⟨[], true⟩, lcp := { State.reset.lcp with upDiscarding := true, downDiscarding := true } }
      s.rstHigh = true ∧ s.lcp.upDiscarding = true ∧ s.lcp.downDiscarding = true ∧ s.hlp.discarding = true) := by decide +kernel
theorem witness_FramesRoundTrip :
    (⟨0, 254, 1, 9, List.replicate 248 1⟩ : LineFrame).payload.length ≤ 248 ∧ (⟨1, 3, List.replicate 248 1⟩ : HeadFrame).payload.length ≤ 248 := by
  decide +kernel
/-- The report that waits in the arbiter's witnesses. -/
def waiting : Report := .shell (shellReport product (shell .tailing))

/-- The station with frames to forward and one result, at a share count; F is 2 (8.9.2). -/
def sharing (share : Nat) (results : List Report) : State :=
  { buffered 2 with
    lcp := { (buffered 2).lcp with share := share }
    rqu := { Rqu.reset with entries := results }
    tst := { Tst.reset with share := some 2 } }

/-- A segment report of shell 41. -/
def segmentReport : SegmentReport := judge product 0 ⟨0, 41, 0, 16, List.replicate 16 none⟩ false

/-- The station with a number of segment reports and of shell reports held. -/
def filled (segments shells reservations : Nat) : State :=
  { State.reset with rqu := { Rqu.reset with
      entries := List.replicate segments (.segment segmentReport) ++ List.replicate shells waiting, reservations := reservations } }

/-- The first two rows, a RESTART answer waiting, in transmission and absent; each claimant of an idle transmitter, and a busy one. -/
theorem witness_ArbiterAnswerThenNotice :
    ((answering 0).rstHigh = true ∧ (answering 0).lcp.slot = some (frameTo 254) ∧ (answering 0).cmu.state = .idle
      ∧ (answering 0).lcp.upTx ≠ none
      ∧ ({ answering 0 with cmu := (restarting .waiting).cmu } : State).cmu.state = .restartPending .waiting)
    ∧ (let s := State.reset.raiseLevelChange
      s.rstHigh = true ∧ s.lcp.slot = none ∧ s.rqu.notices ≠ Notices.empty ∧ s.lcp.upTx = none ∧ s.ready = some .notices
      ∧ ({ s with cmu := (restarting .sending).cmu } : State).cmu.state = .restartPending .sending)
    ∧ State.reset.ready = none
    ∧ (let s : State := { State.reset with lcp := { State.reset.lcp with slot := some (frameTo 254) }, ready := some .answer }
      s.lcp.upTx = none ∧ s.ready = some .answer ∧ s.lcp.slot = some (frameTo 254)) := by
  decide +kernel

/-- The other rows, a RESTART answer in transmission and none; then either claimant of an idle transmitter. -/
theorem witness_ArbiterSharesThePort :
    (∀ share results, (sharing share results).rstHigh = true ∧ (sharing share results).lcp.slot = none
      ∧ (sharing share results).rqu.notices = Notices.empty ∧ (sharing share results).lcp.up = frameTo 254 :: [frameTo 254]
      ∧ (sharing share results).cmu.state = .idle)
    ∧ (sharing 2 []).rqu.entries = []
    ∧ ((sharing 1 [waiting]).rqu.entries ≠ [] ∧ (sharing 1 [waiting]).lcp.share < (sharing 1 [waiting]).tst.share.getD 1)
    ∧ ((sharing 2 [waiting]).rqu.entries = waiting :: [] ∧ (sharing 2 [waiting]).tst.share.getD 1 ≤ (sharing 2 [waiting]).lcp.share)
    ∧ ((restarting .sending).cmu.state = .restartPending .sending ∧ (restarting .sending).rstHigh = true
      ∧ (restarting .sending).lcp.slot = none ∧ (restarting .sending).rqu.notices = Notices.empty
      ∧ (restarting .sending).lcp.up = [] ∧ (restarting .sending).rqu.entries = [])
    ∧ (let s := sharing 1 [waiting]
      s.lcp.upTx = none ∧ (s.claim .forwarded).ready = some .forwarded ∧ (s.claim .results).ready = some .results) := by
  refine ⟨fun _ _ => ⟨rfl, rfl, rfl, rfl, rfl⟩, rfl, ?_, ⟨rfl, ?_⟩, ?_, ?_⟩ <;> decide +kernel

theorem witness_LinksGoOn :
    (buffered 1).rstHigh = true ∧ (buffered 1).lcp.down = frameTo 9 :: [] ∧ State.reset.lcp.down = []
    ∧ ({ State.reset with hlp := ⟨[⟨0, 1, []⟩], true⟩ } : State).hlp.queue = ⟨0, 1, []⟩ :: [] := by decide +kernel

/-! ### Witnesses: reports from the heads and the motion node -/

/-- The reading of a report of sequence 5. -/
def reportOf (kind : FireKind) (energyLow : Bool) (echoes : List (Nat × Nat)) : ShotReport :=
  ⟨5, kind, 50100, 1137, energyLow, echoes.map fun e => ⟨e.1, e.2⟩⟩

/-- The reading of a MEASURE report without echoes. -/
def measureReport : ShotReport := reportOf .measure false []

/-- The station of `fired` with head 0 in a state, at a miss count, and a request. -/
def awaited (kind : FireKind) (state : HeadState) (miss : Nat) (request : Option (Fin 8)) : State :=
  { fired kind with hcu :=
    { (fired kind).hcu with heads := (fired kind).hcu.heads.set 0 { activeHead with state := state, miss := miss }, request := request } }

/-- A station with no head enabled, a fire of head 0 outstanding and head 0 requested. -/
def unfitted : State :=
  { State.reset with
    fsc := { Fsc.reset with records := Fsc.reset.records.set 0 (.outstanding 5 .calibrate 50400 1) }
    hcu := { Hcu.reset with request := some 0 } }

/-- MEASURE, of an ACTIVE head and of a LOST one whose count returns to 0; CALIBRATE with a request that names the head, with head 3 the
next enabled and with none, and without one. -/
theorem witness_MatchingReportClosesFire :
    (let s := awaited .measure .active 6 none;
      s.hearsHeadLink = true ∧ (1 : Byte).toNat = (0 : Fin 8).val + 1 ∧ readShotReport (shotPayload 5 0 50100 0 []) = some measureReport
      ∧ s.fire 0 = .outstanding measureReport.seq measureReport.kind 50400 1 ∧ s.HeadLawful 0 ∧ measureReport.kind = .measure
      ∧ s.mtr.history = [] ∧ s.rsq.items = [] ∧ s.lcp.upTx = none)
    ∧ (let s := awaited .measure .lost 1 none
      s.hearsHeadLink = true ∧ s.fire 0 = .outstanding measureReport.seq measureReport.kind 50400 1 ∧ s.HeadLawful 0
      ∧ (s.head 0).state = .lost ∧ (s.head 0).miss = 1)
    ∧ (let s := awaited .calibrate .active 0 (some 0)
      s.hearsHeadLink = true ∧ s.fire 0 = .outstanding (reportOf .calibrate false calEchoes).seq .calibrate 50400 1 ∧ s.HeadLawful 0
      ∧ s.hcu.request = some 0 ∧ s.enabled (0 + 1 + 2) = true ∧ ∀ j : Fin 8, j < 2 → s.enabled (0 + 1 + j) = false)
    ∧ (unfitted.hearsHeadLink = true ∧ unfitted.fire 0 = .outstanding 5 .calibrate 50400 1 ∧ unfitted.HeadLawful 0
      ∧ unfitted.hcu.request = some 0 ∧ ∀ j, unfitted.enabled j = false)
    ∧ (awaited .calibrate .active 0 none).hcu.request ≠ some 0 := by
  unfold State.HeadLawful
  refine ⟨?_, ?_, ?_, ?_, ?_⟩ <;> decide +kernel

/-- The last reply of an ended round and a reply of a round that goes on; a MEASURE report with a sample held and another shot waiting. -/
theorem witness_MatchingReportClosesFire_round :
    (let s : State := { awaited .measure .lost 1 none with fsc := { (fired .measure).fsc with round := 2, tallies := [⟨1, 1, 0, 0, 1, true⟩] } };
      s.hearsHeadLink = true ∧ s.fire 0 = .outstanding measureReport.seq measureReport.kind 50400 1 ∧ s.HeadLawful 0
      ∧ s.fsc.tallies.find? (fun y => y.round == 1) = some ⟨1, 1, 0, 0, 1, true⟩)
    ∧ (awaited .measure .active 6 none).fsc.tallies.find? (fun y => y.round == 1) = some ⟨1, 1, 0, 0, 0, false⟩
    ∧ (let s : State := { sampled (awaited .measure .active 0 none) with rsq := ⟨[.shot ⟨3, 1000001, 1, 1137, false, []⟩]⟩ }
      s.hearsHeadLink = true ∧ s.fire 0 = .outstanding measureReport.seq measureReport.kind 50400 1 ∧ s.HeadLawful 0
      ∧ s.mtr.history ≠ [] ∧ s.rsq.items ≠ []) := by
  unfold State.HeadLawful
  refine ⟨?_, ?_, ?_⟩ <;> decide +kernel

/-- The calibrations of such a report: within the limit (3.9.2), above it, below it, with the energy low and with one echo. -/
theorem witness_MatchingReportClosesFire_calibrations :
    let e := (awaited .calibrate .active 0 none).headEntry 0
    let reached (r : ShotReport) := r.echoes.filter fun x => decide (e.threshold ≤ x.amp)
    let kNew (e0 e1 : Echo) := roundDiv (65536 * e.reference) (e1.time - e0.time)
    (readShotReport (shotPayload 5 1 50100 0 calEchoes) = some (reportOf .calibrate false calEchoes)
      ∧ reached (reportOf .calibrate false calEchoes) = ⟨3000, 3100⟩ :: ⟨18984, 2800⟩ :: [⟨34970, 1900⟩]
      ∧ 65536 - e.limit ≤ kNew ⟨3000, 3100⟩ ⟨18984, 2800⟩ ∧ kNew ⟨3000, 3100⟩ ⟨18984, 2800⟩ ≤ 65536 + e.limit)
    ∧ (readShotReport (shotPayload 5 1 50100 0 [(0, 2000), (100, 1000)]) = some (reportOf .calibrate false [(0, 2000), (100, 1000)])
      ∧ reached (reportOf .calibrate false [(0, 2000), (100, 1000)]) = ⟨0, 2000⟩ :: ⟨100, 1000⟩ :: []
      ∧ 65536 + e.limit < kNew ⟨0, 2000⟩ ⟨100, 1000⟩)
    ∧ (readShotReport (shotPayload 5 1 50100 0 [(0, 2000), (99999, 1000)]) = some (reportOf .calibrate false [(0, 2000), (99999, 1000)])
      ∧ kNew ⟨0, 2000⟩ ⟨99999, 1000⟩ < 65536 - e.limit)
    ∧ (readShotReport (shotPayload 5 1 50100 1 calEchoes) = some (reportOf .calibrate true calEchoes)
      ∧ (reportOf .calibrate true calEchoes).energyLow = true)
    ∧ (reached (reportOf .calibrate false [(0, 2000), (100, 999)])).length < 2 := by
  decide +kernel

/-- The station with a fire of head 0 expired: sequence and kind. -/
def expired (seq : Byte) (kind : FireKind) : State :=
  { running with fsc := { running.fsc with records := running.fsc.records.set 0 (.expired seq kind) } }

theorem witness_UnmatchedReportsDiscarded :
    (running.hearsHeadLink = true ∧ readShotReport (shotPayload 5 0 50100 0 []) = some measureReport ∧ running.fire 0 = .idle)
    ∧ ((expired 5 .measure).hearsHeadLink = true ∧ (expired 5 .measure).fire 0 = .expired measureReport.seq measureReport.kind)
    ∧ ((expired 5 .calibrate).fire 0 = .expired 5 .calibrate ∧ FireKind.calibrate ≠ measureReport.kind)
    ∧ ((fired .calibrate).fire 0 = .outstanding 5 .calibrate 50400 1 ∧ FireKind.calibrate ≠ measureReport.kind) := by decide +kernel

/-- R204's malformed reports: seven echoes, a wrong length, kind 2, echoes of one time; a payload of ten bytes, and shorter ones. -/
theorem witness_UnmatchedReportsDiscarded_malformed :
    (let p := shotPayload 5 0 50100 0 (List.replicate 7 (9, 9));
      6 < field p 9 1 ∧ 10 ≤ p.length)
    ∧ (let p := shotPayload 5 0 50100 0 [] ++ [0]
      p.length ≠ 10 + 4 * field p 9 1)
    ∧ (let p := shotPayload 5 2 50100 0 []
      1 < field p 1 1 ∧ 10 ≤ p.length)
    ∧ (let p := shotPayload 5 0 50100 0 [(9, 8), (9, 9)]
      0 + 1 < field p 9 1 ∧ field p (10 + 4 * (0 + 1)) 4 / 4096 ≤ field p (10 + 4 * 0) 4 / 4096)
    ∧ (([] : Bytes).length ≠ 10 + 4 * field [] 9 1 ∧ ([] : Bytes).length < 10)
    ∧ (let p : Bytes := [5, 0, 0, 0, 0, 0, 0, 0, 0]
      p.length ≠ 10 + 4 * field p 9 1 ∧ p.length < 10) := by decide +kernel

theorem witness_MotionSampleResolves :
    (sampled measuring).hearsHeadLink = true ∧ (motionPayload 1005000 500100 4 0).length = 11
    ∧ (readMotion (motionPayload 1005000 500100 4 0)).2 = false
    ∧ (∀ n, (sampled measuring).mtr.history.getLast? = some n → earlier n.tau (readMotion (motionPayload 1005000 500100 4 0)).1.tau = true)
    ∧ (sampled measuring).mtr.history.length ≤ 8 := by
  refine ⟨by decide +kernel, by decide +kernel, by decide +kernel, ?_, by decide +kernel⟩
  intro n h
  have : n = ⟨1000000, 500000, 4000⟩ := by simpa [sampled] using h.symm
  subst this
  decide +kernel

/-- With eight samples held, the newest at part time 1007000, and an item that the pass releases. -/
theorem witness_MotionSampleResolves_eight :
    let s : State := { measuring with
      mtr := { measuring.mtr with history := (List.range 8).map fun i => ⟨BitVec.ofNat 32 (1000000 + 1000 * i), 500000, 4000⟩ }
      rsq := ⟨[.shot ⟨0, 1007500, 5, 1137, false, []⟩, .gate ⟨.a, false, 1008001⟩]⟩ }
    let x := readMotion (motionPayload 1008000 500100 4 0)
    s.hearsHeadLink = true ∧ (motionPayload 1008000 500100 4 0).length = 11 ∧ x.2 = false
    ∧ (∀ n ∈ s.mtr.history.getLast?, earlier n.tau x.1.tau = true) ∧ s.mtr.history.length = 8
    ∧ earlier x.1.tau 1007500 = false ∧ earlier x.1.tau 1008001 = true := by decide +kernel

/-- A faulty report, one not later than the newest sample, and one of twelve bytes. -/
theorem witness_MotionReportsRefused :
    (sampled measuring).hearsHeadLink = true
    ∧ ((motionPayload 1005000 500100 4 1).length = 11 ∧ (readMotion (motionPayload 1005000 500100 4 1)).2 = true)
    ∧ ((readMotion (motionPayload 1000000 500100 4 0)).2 = false
      ∧ ∃ n, (sampled measuring).mtr.history.getLast? = some n ∧ earlier n.tau (readMotion (motionPayload 1000000 500100 4 0)).1.tau = false)
    ∧ ((motionPayload 1000000 500100 4 0 ++ [0]).length ≠ 11 ∧ (motionPayload 1000000 500100 4 0 ++ [0]).length ≤ 248) := by
  refine ⟨by decide +kernel, by decide +kernel, ⟨by decide +kernel, ⟨1000000, 500000, 4000⟩, by decide +kernel, by decide +kernel⟩, by decide +kernel⟩

/-! ### Witnesses: the firing schedule and the timers -/

/-- Cycles within a round, at its end and in STOPPING; a round all of whose fires have resolved, with a miss, and one that has not, which
ends beside an earlier round's tally. -/
theorem witness_CycleEndFollows :
    (running.rstHigh = true ∧ running.entry 2 = .fin 1000 ∧ (∀ m, m < 2 → (running.entry m).isFin = false)
      ∧ running.tst.header = some 4 ∧ running.fsc.state = .running ∧ (running.fsc.cycleCount + 1) % 4 ≠ 0)
    ∧ ((inCycle 3 2).rstHigh = true ∧ (inCycle 3 2).entry 2 = .fin 1000 ∧ (inCycle 3 2).fsc.state = .running
      ∧ ((inCycle 3 2).fsc.cycleCount + 1) % 4 = 0)
    ∧ ((inState .stopping).rstHigh = true ∧ (inState .stopping).entry 2 = .fin 1000 ∧ (inState .stopping).fsc.state = .stopping)
    ∧ (let s : State := { inCycle 3 2 with fsc := { (inCycle 3 2).fsc with tallies := [⟨1, 4, 4, 1, 0, false⟩] } }
      s.fsc.tallies.find? (fun y => y.round == s.fsc.round) = some ⟨1, 4, 4, 1, 0, false⟩)
    ∧ (let s : State := { inCycle 3 2 with fsc := { (inCycle 3 2).fsc with round := 2, tallies := [⟨1, 4, 3, 0, 0, true⟩, ⟨2, 1, 0, 0, 0, false⟩] } }
      s.fsc.tallies.find? (fun y => y.round == s.fsc.round) = some ⟨2, 1, 0, 0, 0, false⟩) := by
  decide +kernel

/-- R43, R44: that round's tally stays, marked ended, beside the earlier one and the new round's. -/
theorem test_cycle_end_keeps_tallies :
    (after .cycleEnd { inCycle 3 2 with fsc :=
      { (inCycle 3 2).fsc with round := 2, tallies := [⟨1, 4, 3, 0, 0, true⟩, ⟨2, 1, 0, 0, 0, false⟩] } }).map (fun s => s.fsc.tallies)
      = some [⟨1, 4, 3, 0, 0, true⟩, ⟨2, 1, 0, 0, 0, true⟩, ⟨3, 0, 0, 0, 0, false⟩] := by decide +kernel

/-- A request that names head 3, whose entry allows the steal. -/
def stealing : State := { inCycle 1 1 with hcu := { (inCycle 1 1).hcu with request := some 3 } }

/-- Entry 0 of the first cycle fires MEASURE; entry 1 of cycle 1 steals for the request, no shell being live. -/
theorem witness_FiringPointFires :
    (running.rstHigh = true ∧ running.cyclesRun = true ∧ running.entry 0 = .shot 100 0 1 0 0 false
      ∧ (∀ m, m ≤ 0 → (running.entry m).isFin = false) ∧ running.fsc.place ≤ 0 ∧ running.fsc.cycleCount % 1 = 0
      ∧ running.tst.profiles[(0 : Fin 4)] = some ⟨300, 600⟩
      ∧ (∀ seq kind expiry round, running.fire 0 ≠ .outstanding seq kind expiry round) ∧ running.hcu.request ≠ some 0)
    ∧ (stealing.rstHigh = true ∧ stealing.cyclesRun = true ∧ stealing.entry 1 = .shot 400 3 2 1 1 true
      ∧ (∀ m, m ≤ 1 → (stealing.entry m).isFin = false) ∧ stealing.fsc.place ≤ 1 ∧ stealing.fsc.cycleCount % 2 = 1
      ∧ stealing.tst.profiles[(1 : Fin 4)] = some ⟨400, 2500⟩
      ∧ (∀ seq kind expiry round, stealing.fire 3 ≠ .outstanding seq kind expiry round)
      ∧ stealing.hcu.request = some 3 ∧ stealing.calSetup.defer = false) := by
  have h0 : running.fire 0 = .idle := by decide +kernel
  have h3 : stealing.fire 3 = .idle := by decide +kernel
  rw [h0, h3]
  refine ⟨⟨by decide +kernel, by decide +kernel, by decide +kernel, by decide +kernel, by decide +kernel, by decide +kernel,
    by decide +kernel, by intros; nofun, by decide +kernel⟩, ⟨by decide +kernel, by decide +kernel, by decide +kernel,
    by decide +kernel, by decide +kernel, by decide +kernel, by decide +kernel, by intros; nofun, by decide +kernel, by decide +kernel⟩⟩

/-- Entry 0 with head 0 outstanding is skipped; entry 1 is not selected in cycle 0. -/
theorem witness_FiringPointSkips :
    ((fired .measure).rstHigh = true ∧ (fired .measure).cyclesRun = true ∧ (fired .measure).entry 0 = .shot 100 0 1 0 0 false
      ∧ (fired .measure).fsc.place ≤ 0 ∧ (fired .measure).fsc.cycleCount % 1 = 0
      ∧ (fired .measure).fire 0 = .outstanding 5 .measure 50400 1)
    ∧ (running.entry 1 = .shot 400 3 2 1 1 true ∧ (∀ m, m ≤ 1 → (running.entry m).isFin = false) ∧ running.fsc.place ≤ 1
      ∧ running.fsc.cycleCount % 2 ≠ 1) := by decide +kernel

/-- A miss below the limit, the miss that reaches 7, and the last miss of an ended round. -/
theorem witness_WindowExpiryMisses :
    ((awaited .measure .active 5 none).rstHigh = true ∧ (awaited .measure .active 5 none).fire 0 = .outstanding 5 .measure 50400 1
      ∧ ¬ 6 ≤ ((awaited .measure .active 5 none).head 0).miss)
    ∧ ((awaited .calibrate .active 6 none).fire 0 = .outstanding 5 .calibrate 50400 1
      ∧ ((awaited .calibrate .active 6 none).head 0).state = .active ∧ 6 ≤ ((awaited .calibrate .active 6 none).head 0).miss)
    ∧ (let s : State := { fired .measure with fsc := { (fired .measure).fsc with round := 2, tallies := [⟨1, 1, 0, 0, 0, true⟩, ⟨2, 0, 0, 0, 0, false⟩] } }
      s.fire 0 = .outstanding 5 .measure 50400 1
      ∧ s.fsc.tallies.find? (fun y => y.round == 1) = some ⟨1, 1, 0, 0, 0, true⟩)
    ∧ (fired .measure).fsc.tallies.find? (fun y => y.round == 1) = some ⟨1, 1, 0, 0, 0, false⟩ := by decide +kernel

/-- A missed calibration that the request names, with head 3 the next enabled and with none enabled, and one that it does not name. -/
theorem witness_WindowExpiryMisses_request :
    (let s := awaited .calibrate .active 0 (some 0);
      s.rstHigh = true ∧ s.fire 0 = .outstanding 5 .calibrate 50400 1 ∧ s.hcu.request = some 0
      ∧ s.enabled (0 + 1 + 2) = true ∧ ∀ j : Fin 8, j < 2 → s.enabled (0 + 1 + j) = false)
    ∧ (unfitted.rstHigh = true ∧ unfitted.fire 0 = .outstanding 5 .calibrate 50400 1 ∧ unfitted.hcu.request = some 0
      ∧ ∀ j, unfitted.enabled j = false)
    ∧ (awaited .calibrate .active 0 (some 3)).hcu.request ≠ some 0 := by decide +kernel

/-- The station with an armed calibration timer. -/
def timed (request : Option (Fin 8)) (s : State) : State :=
  { s with hcu := { s.hcu with request := request, pointer := 4, timer := some ⟨0, 60⟩ } }

/-- A pending request; no head enabled; the walk from pointer 4 over heads 4..7 to head 0. -/
theorem witness_CalibrationTimerExpires :
    ((timed (some 3) fitted).rstHigh = true ∧ (timed (some 3) fitted).hcu.timer = some ⟨0, 60⟩ ∧ (timed (some 3) fitted).hcu.request ≠ none)
    ∧ ((timed none State.reset).hcu.request = none ∧ ∀ h, (timed none State.reset).enabled h = false)
    ∧ ((timed none fitted).hcu.request = none ∧ (timed none fitted).enabled ((timed none fitted).hcu.pointer + 4) = true
      ∧ ∀ j : Fin 8, j < 4 → (timed none fitted).enabled ((timed none fitted).hcu.pointer + j) = false) := by decide +kernel

/-! ### Witnesses: gates and resolution -/

/-- The station of `changing` with a number of gate items held. -/
def crowded (n : Nat) : State := { changing .a false with rsq := ⟨List.replicate n (.gate ⟨.b, true, 100⟩)⟩ }

/-- A line that goes away from its settled level, with a filter time and with none; one that goes back; one that does not change. -/
theorem witness_GateLineChangeFilters :
    (fitted.rstHigh = true ∧ (fitted.filter .a).line ≠ true ∧ true ≠ (fitted.filter .a).settled ∧ fitted.track.filterTime ≠ 0)
    ∧ (State.reset.rstHigh = true ∧ (State.reset.filter .b).line ≠ true ∧ true ≠ (State.reset.filter .b).settled
      ∧ State.reset.track.filterTime = 0)
    ∧ ((changing .b true).rstHigh = true ∧ ((changing .b true).filter .b).line ≠ false ∧ false = ((changing .b true).filter .b).settled)
    ∧ (fitted.filter .a).line = false := by decide +kernel

/-- A GATE_B fall; an edge with room, with four gate items held, later than the newest sample, at its time and before it. -/
theorem witness_GateFilterTakesEdge :
    ((changing .b false).rstHigh = true ∧ ((changing .b false).filter .b).pending = some ⟨700, 800⟩
      ∧ (!((changing .b false).filter .b).settled) = false)
    ∧ (((crowded 3).filter .a).pending = some ⟨700, 800⟩ ∧ (crowded 3).mtr.history.getLast? = none ∧ (crowded 3).rsq.gates < 4)
    ∧ (((crowded 4).filter .a).pending = some ⟨700, 800⟩ ∧ (crowded 4).mtr.history.getLast? = none ∧ 4 ≤ (crowded 4).rsq.gates)
    ∧ (((changing .b true).filter .b).pending = some ⟨700, 800⟩ ∧ (!((changing .b true).filter .b).settled) = true)
    ∧ ((sampled fitted).mtr.history.getLast? = some ⟨1000000, 500000, 4000⟩ ∧ earlier 1000000 1000001 = true
      ∧ earlier 1000000 1000000 = false ∧ earlier 1000000 999999 = false) := by decide +kernel

/-- The station with one sample, at part time 1000000, and a number of shots waiting. -/
def queued (n : Nat) : State :=
  { sampled measuring with rsq := ⟨(List.range n).map fun i => .shot ⟨0, BitVec.ofNat 32 (1000001 + i), 5, 1137, false, []⟩⟩ }

/-- The rows of R93: a duplicate; a shot before the oldest sample, at the newest and after it, with 59 and with 60 held. -/
theorem witness_ItemInsertedInOrder_arrival :
    let duplicate (s : State) (h : Fin 8) (t : PartTime) := (s.rsq.items.filterMap Item.shotKey).contains (h, t)
    (duplicate (queued 60) 0 1000060 = true ∧ Item.shot ⟨0, 1000060, 5, 1137, false, []⟩ ∈ (queued 60).rsq.items)
    ∧ ((queued 59).mtr.history.head? = some ⟨1000000, 500000, 4000⟩ ∧ (queued 59).mtr.history.getLast? = some ⟨1000000, 500000, 4000⟩)
    ∧ (duplicate (queued 59) 0 999999 = false ∧ earlier 999999 1000000 = true)
    ∧ (duplicate (queued 59) 0 1000000 = false ∧ earlier 1000000 1000000 = false)
    ∧ (duplicate (queued 59) 1 1000001 = false ∧ earlier 1000001 1000000 = false ∧ earlier 1000000 1000001 = true)
    ∧ ((queued 59).rsq.shots < 60 ∧ 60 ≤ (queued 60).rsq.shots) := by decide +kernel

/-- The samples of 4.10.2: their order, their span, times before, between and after them. -/
theorem witness_MotionAtSamples :
    let history : List Sample := [⟨1000000, 500000, 4000⟩, ⟨1005000, 500100, 4⟩]
    span (⟨1000000, 500000, 4000⟩, ⟨1005000, 500100, 4⟩) ≠ 0 ∧ history.Pairwise (fun a b => earlier a.tau b.tau = true)
    ∧ bracket history 1003200 = some (⟨1000000, 500000, 4000⟩, ⟨1005000, 500100, 4⟩) ∧ bracket history 1005001 = none
    ∧ (⟨1005000, 500100, 4⟩ : Sample) ∈ history ∧ (1005000 : PartTime) ≠ 1000000
    ∧ earlier 999999 1000000 = true ∧ earlier 1000000 1000000 = false := by decide +kernel

/-- Both slots free and none announced; slot 0 held by a tailing shell. -/
theorem witness_GateARiseEntersShell :
    (fitted.tst.tracking = some tracking ∧ fitted.anyCtx ShellContext.beforeTail = false ∧ fitted.ctx 0 = none
      ∧ fitted.rqu.entries.length + fitted.rqu.reservations < 64)
    ∧ (let s : State := { measuring with mtr := { measuring.mtr with contexts := measuring.mtr.contexts.set 0 (some (shell .tailing)) } }
      s.tst.tracking = some tracking ∧ s.anyCtx ShellContext.beforeTail = false ∧ s.ctx 1 = none
      ∧ s.rqu.entries.length + s.rqu.reservations < 64) := by decide +kernel

/-- The part unconfigured; a context before its tail, and no slot free; head 3 LOST; a product of curve 2 with a part unloaded; a full queue
with a report of the live shell, and with a shell report, at its front. -/
theorem witness_GateARiseEntersShell_rows :
    let tailing : State := measuring.setCtx 0 (some (shell .tailing))
    (State.reset.tst.tracking = none ∧ fitted.tst.tracking ≠ none)
    ∧ (measuring.ctx 0 = some (shell .measuring) ∧ (shell .measuring).phase = .measuring)
    ∧ ((tailing.setCtx 1 (some (shell .tailing))).ctx 0 ≠ none ∧ (tailing.setCtx 1 (some (shell .tailing))).ctx 1 ≠ none)
    ∧ ((fitted.setHead 3 { activeHead with state := .lost }).head 3).state = .lost
    ∧ (measuring.tst.products[(0 : Fin 16)] = some product ∧ product.grade = (2 : Fin 8).val
      ∧ measuring.tst.loaded 3 (3 * (2 : Fin 8).val + 2) = false)
    ∧ (let s : State := { tailing with rqu := (filled 62 1 1).rqu }
      s.tst.tracking ≠ none ∧ s.anyCtx ShellContext.beforeTail = false ∧ s.ctx 1 = none
      ∧ s.rqu.entries = .segment segmentReport :: s.rqu.entries.tail ∧ s.rqu.entries.length + s.rqu.reservations = 64
      ∧ segmentReport.shell = (shell .tailing).shell)
    ∧ (filled 0 63 1).rqu.entries = waiting :: (filled 0 63 1).rqu.entries.tail := by decide +kernel

/-- R144: a full queue's segment report of the live shell moves from reported to lost, and the new shell enters. -/
theorem test_gate_a_rise_at_full_queue :
    let summary := { Summary.zero with reported := 62 }
    let s' := State.gateARise { measuring.setCtx 0 (some { shell .tailing with summary := summary }) with rqu := (filled 62 1 1).rqu } 9 ⟨0, 0⟩ false
    (s'.ctx 0).map (fun c => (c.summary.reported, c.summary.lost)) = some (61, 1)
    ∧ (s'.ctx 1).map (fun c => c.shell) = some 42 ∧ s'.cmu.capture = some ⟨.resultOverflow, .upstream, 9, 41⟩ := by decide +kernel

/-- A context is ENTERING alone; its encoder advance lies within the limit, outside it, and is none (4.10.1); a MEASURING one has its tail;
no context has either. -/
theorem witness_ShellsTrackedAndShotsPlaced :
    let entering : State := measuring.setCtx 0 (some (shell .entering))
    let off (diff : Nat) : Int := |(roundDiv (entering.track.gateDist * 65536) diff : Int) - entering.track.nominal| * 1024
    (entering.ctx 0 = some (shell .entering) ∧ (shell .entering).phase = .entering ∧ entering.ctx 1 = none)
    ∧ (((430140 : Count) - (shell .entering).encA).toInt = 30140 ∧ off 30140 ≤ entering.track.nominal * entering.track.scaleLimit)
    ∧ (((428000 : Count) - (shell .entering).encA).toInt = 28000 ∧ (entering.track.nominal * entering.track.scaleLimit : Nat) < off 28000)
    ∧ ((400000 : Count) - (shell .entering).encA).toInt ≤ 0
    ∧ (measuring.ctx 0 = some (shell .measuring) ∧ (shell .measuring).phase = .measuring ∧ measuring.ctx 1 = none)
    ∧ (∀ i, fitted.ctx i = none) := by
  refine ⟨by decide +kernel, ⟨by decide +kernel, ?_⟩, ⟨by decide +kernel, ?_⟩, by decide +kernel, by decide +kernel, by decide +kernel⟩
  · have : roundDiv ((measuring.setCtx 0 (some (shell .entering))).track.gateDist * 65536) 30140 = 3262 := by decide +kernel
    beta_reduce
    rw [this]; decide +kernel
  · have : roundDiv ((measuring.setCtx 0 (some (shell .entering))).track.gateDist * 65536) 28000 = 3511 := by decide +kernel
    beta_reduce
    rw [this]; decide +kernel

/-- The bracket of 4.10.2, whose span is 5000, and one beyond the gap limit. -/
def pair (span : Nat) : Sample × Sample := (⟨1000000, 500000, 4000⟩, ⟨1000000 + BitVec.ofNat 32 span, 500100, 4⟩)

/-- No context holds shots; a span at the gap limit and one beyond it; the shot of 4.10.2 lies at x 3180, one of head 0 before its shell
has come and one past its end do not; an index beyond 1023 and a shell without a product. -/
theorem witness_ShellsTrackedAndShotsPlaced_placement :
    let x (c : ShellContext) (enc : Count) (p : Nat) : Int := Int.fdiv ((enc - c.encA).toInt * c.scale) 65536 - p
    (∀ i, fitted.ctx i = none)
    ∧ (measuring.ctx 0 = some (shell .measuring) ∧ (shell .measuring).phase = .measuring ∧ measuring.mtr.older = 0
      ∧ measuring.track.gapLimit < span (pair 20001) ∧ span (pair 20000) ≤ measuring.track.gapLimit)
    ∧ (x (shell .measuring) (motionIn (pair 5000) 1003200).enc (measuring.headEntry 0).distance = 3180
      ∧ 3180 / (measuring.productEntry 0).segLength ≤ 1023 ∧ (shell .measuring).flags.noProduct = false)
    ∧ (x (shell .measuring) 400000 (measuring.headEntry 0).distance < 0 ∧ ({ shell .tailing with length := some 3180 }).length = some 3180)
    ∧ 1023 < (x (shell .measuring) 4600000 (measuring.headEntry 0).distance).toNat / (measuring.productEntry 0).segLength
    ∧ ({ (shell .measuring).flags with noProduct := true } : ShellFlags).noProduct = true := by
  decide +kernel

/-- A pair exists and none exists (1.8.1, 1.8.5). -/
theorem witness_PairSearchTakesFirst :
    findPair 65601 12129 24256 [12000, 21800, 39410, 57060] = some ⟨21800, 39410, 17627, [57060]⟩
    ∧ findPair 65601 12129 24256 [12000, 21800] = none := by decide +kernel

/-- 1.8.1 has a confirming echo, 1.8.2 none, and each rung of the ladder is reached (1.8.5). -/
theorem witness_EvaluationOutcomes :
    let found (last : Nat) := findPair 65601 (gateLo 15000 49472) (gateHi 30000 49472)
      (((echoCase last).echoes.filter fun e => decide (800 ≤ e.amp)).map Echo.time)
    velocityAt curve (min 1280 1137) = 49472 ∧ evaluateHeld (echoCase 1200) = some 1137
    ∧ found 1200 = some ⟨21800, 39410, 17627, [] ++ 57060 :: []⟩
    ∧ |(corrected 65601 (57060 - 39410) : Int) - 17627| ≤ 60
    ∧ found 700 = some ⟨21800, 39410, 17627, []⟩
    ∧ ({ echoCase 1200 with energyLow := true } : EvalInput).energyLow = true
    ∧ evaluateHeld { echoCase 1200 with temp := 1501 } = none := by
  refine ⟨by decide +kernel, by decide +kernel, by decide +kernel, ?_, by decide +kernel, rfl, by decide +kernel⟩
  have : corrected 65601 (57060 - 39410) = 17668 := by decide +kernel
  rw [this]
  decide

/-- The station with that shell's curve loaded, the points of `curve` in curve 2. -/
def graded : State :=
  let part (n : Nat) : Option GradePart := some (Vector.ofFn fun i : Fin 11 => curve.getD (11 * n + i.val) ⟨0, 0⟩)
  { measuring with tst := { measuring.tst with
      grades := ((measuring.tst.grades.set 6 (part 0)).set 7 (part 1)).set 8 (part 2) } }

/-- The figures at the ends of their ranges: 0 and 1279 degrees, the first and the last part of a curve that is loaded, a velocity above 0. -/
theorem witness_EvaluationOutcomes_figures :
    (0 = 40 * 0 + 0 ∧ 1279 = 40 * 31 + 39 ∧ 31 < 32 ∧ 39 < 40)
    ∧ ((graded.tst.grades[3 * (2 : Fin 8).val + (0 : Fin 3).val]?.join).isSome = true
      ∧ (graded.tst.grades[3 * (2 : Fin 8).val + (2 : Fin 3).val]?.join).isSome = true)
    ∧ 0 < velocityAt curve 1137 := by decide +kernel

/-- The shot of the echo case, at the time of 4.10.2. -/
def echoShot : Shot := ⟨0, 1003200, 5, 1137, false, (echoCase 1200).echoes⟩

/-- The shot is placed; its evaluation on that shell comes to each outcome in turn; the head is then USABLE after history 15 and SUSPECT
after history 0; a shell with NO_PRODUCT and one with NO_GRADE. -/
theorem witness_EvaluationOutcomes_placed :
    let input (x : Shot) (c : ShellContext) : EvalInput :=
      ⟨x.echoes, x.temp, x.energyLow, c.heldTemp, 65601, graded.productEntry c.product, graded.curvePoints ((c.grade.getD 0).val)⟩
    graded.place 0 1003200 (pair 5000) = .placed ⟨0, 41, 15, 8, 3180⟩
    ∧ (graded.ctx 0 = some (shell .measuring) ∧ (shell .measuring).flags.noProduct = false ∧ (shell .measuring).flags.noGrade = false)
    ∧ evaluate (input echoShot (shell .measuring)) = .good 21520
    ∧ evaluate (input { echoShot with energyLow := true } (shell .measuring)) = .lowEnergy
    ∧ evaluate (input { echoShot with temp := 65535 } (shell .measuring)) = .noTemperature
    ∧ evaluate (input { echoShot with echoes := [] } (shell .measuring)) = .noEcho
    ∧ evaluate (input { echoShot with echoes := [⟨0, 900⟩, ⟨1, 900⟩] } (shell .measuring)) = .noPair
    ∧ (graded.pattern.getLsbD ((((15 : BitVec 4) <<< 1) ||| 1).toNat) = true ∧ graded.pattern.getLsbD ((((0 : BitVec 4) <<< 1) ||| 1).toNat) = false)
    ∧ (({ (shell .measuring).flags with noProduct := true } : ShellFlags).noProduct = true
      ∧ ({ (shell .measuring).flags with noGrade := true } : ShellFlags).noGrade = true) := by decide +kernel

/-! ### Witnesses: the wall map, the results and the laws -/

/-- Zones at either end of the counting range and a saturated one. -/
theorem witness_ZoneAccumulates :
    (1 ≤ (⟨1, 20000, 20000, 5, 20000⟩ : Zone).n ∧ (⟨1, 20000, 20000, 5, 20000⟩ : Zone).n ≤ 65534)
    ∧ (1 ≤ (⟨65534, 9, 9, 5, 9⟩ : Zone).n ∧ (⟨65534, 9, 9, 5, 9⟩ : Zone).n ≤ 65534) ∧ (⟨65535, 9, 9, 5, 9⟩ : Zone).n = 65535 := by decide

/-- The station with a number of open records of shell 41, from index 3 on, and a close boundary. -/
def windowed (n boundary : Nat) : State :=
  { measuring.setCtx 0 (some { shell .measuring with boundary := boundary }) with
    wmb := ⟨(List.range n).map fun i => ⟨0, 41, i + 3, 16, List.replicate 16 none⟩⟩ }

theorem windowed_bounded : (windowed 12 0).WindowBounded ∧ (windowed 11 0).WindowBounded ∧ (windowed 11 3).WindowBounded := by
  unfold State.WindowBounded
  decide +kernel

/-- An open key; a segment below the boundary and at it; eleven and twelve records; a victim above the shot's segment and one below it. -/
theorem witness_ShotsMappedAndSegmentsJudged :
    ((windowed 11 0).ctx 0 = some { shell .measuring with boundary := 0 } ∧ ∃ r ∈ (windowed 11 0).wmb.window, r.shell = 41 ∧ r.index = 3)
    ∧ ((windowed 11 3).ctx 0 = some { shell .measuring with boundary := 3 }
      ∧ ∀ r ∈ (windowed 11 3).wmb.window, ¬ (r.shell = 41 ∧ r.index = 2))
    ∧ ((windowed 11 0).wmb.window.length < 12 ∧ ∀ r ∈ (windowed 11 0).wmb.window, ¬ (r.shell = 41 ∧ r.index = 0))
    ∧ ((windowed 12 0).ctx 0 = some { shell .measuring with boundary := 0 } ∧ (windowed 12 0).wmb.window.length = 12
      ∧ ⟨0, 41, 3, 16, List.replicate 16 none⟩ ∈ (windowed 12 0).wmb.window
      ∧ (∀ r ∈ (windowed 12 0).wmb.window, r.shell = 41 → 3 ≤ r.index)
      ∧ (∀ r ∈ (windowed 12 0).wmb.window, ¬ (r.shell = 41 ∧ r.index = 2) ∧ ¬ (r.shell = 41 ∧ r.index = 15))
      ∧ (windowed 12 0).mtr.older = 0)
    ∧ (windowed 12 0).WindowBounded ∧ (windowed 11 0).WindowBounded ∧ (windowed 11 3).WindowBounded :=
  ⟨by decide +kernel, by decide +kernel, by decide +kernel, by decide +kernel, windowed_bounded⟩

/-- An ENTERING context at twice G and just before it; a MEASURING one; a TAILING one of 6000 mm that has cleared the heads and one that has
not. -/
theorem witness_ShotsMappedAndSegmentsJudged_closing :
    let tailing : ShellContext := { shell .tailing with length := some 6000 }
    ((windowed 12 0).ctx 0 = some { shell .measuring with boundary := 0 } ∧ (shell .measuring).flags.noProduct = false
      ∧ (windowed 12 0).WindowBounded)
    ∧ ((measuring.setCtx 0 (some (shell .entering))).ctx 0 = some (shell .entering)
      ∧ ((2 * measuring.track.gateDist : Nat) : Int) ≤ travel (shell .entering) 460000 measuring.track.nominal
      ∧ travel (shell .entering) 459990 measuring.track.nominal < ((2 * measuring.track.gateDist : Nat) : Int))
    ∧ (measuring.ctx 0 = some (shell .measuring) ∧ (shell .measuring).phase = .measuring)
    ∧ ((measuring.setCtx 0 (some tailing)).ctx 0 = some tailing ∧ tailing.phase = .tailing ∧ tailing.length = some 6000
      ∧ ((measuring.pMax + measuring.track.hold : Nat) : Int) ≤ travel tailing 600000 tailing.scale - (6000 : Nat)
      ∧ travel tailing 520550 tailing.scale - (6000 : Nat) < ((measuring.pMax + measuring.track.hold : Nat) : Int))
    ∧ tailing.flags.noProduct = false ∧ measuring.ctx 1 = none :=
  ⟨⟨by decide +kernel, by decide, windowed_bounded.1⟩, by decide +kernel, by decide +kernel, by decide +kernel, by decide, by decide +kernel⟩

/-- A segment of four sectors, two of them valid by the product's least number of shots. -/
def fourSectors : OpenSegment := ⟨0, 41, 7, 4, [some ⟨3, 60000, 19000, 5, 21000⟩, none, some ⟨3, 66000, 18000, 9, 23000⟩, none]⟩

/-- Its zone of greatest mean and that of least, its min in sector 2 and its max in sector 2. -/
theorem witness_ShotsMappedAndSegmentsJudged_judgement :
    let lo : Zone := ⟨3, 60000, 19000, 5, 21000⟩
    let hi : Zone := ⟨3, 66000, 18000, 9, 23000⟩
    let j := judge product 0 fourSectors false
    j.verdict.sparse = false ∧ product.minShots ≤ lo.n ∧ product.minShots ≤ hi.n ∧ some lo ∈ fourSectors.zones ∧ some hi ∈ fourSectors.zones
    ∧ (∀ z, some z ∈ fourSectors.zones → roundDiv lo.sum lo.n ≤ roundDiv z.sum z.n ∧ roundDiv z.sum z.n ≤ roundDiv hi.sum hi.n)
    ∧ fourSectors.zones[2]? = some (some hi)
    ∧ (∀ m y, fourSectors.zones[m]? = some (some y) → (hi.min ≤ y.min ∧ (m < 2 → hi.min < y.min)) ∧ y.max ≤ hi.max ∧ (m < 2 → y.max < hi.max))
    ∧ (judge product 0 { fourSectors with sectors := 6 } false).verdict.sparse = true := by
  refine ⟨by decide +kernel, by decide, by decide, by decide, by decide, ?_, rfl, ?_, by decide +kernel⟩
  · intro z h
    rcases (by simpa [fourSectors] using h : z = ⟨3, 60000, 19000, 5, 21000⟩ ∨ z = ⟨3, 66000, 18000, 9, 23000⟩) with rfl | rfl <;>
      decide +kernel
  · intro m y h
    have bound : m < 4 := by simpa [fourSectors] using (List.getElem?_eq_some_iff.1 h).1
    interval_cases m <;> simp [fourSectors] at h <;> subst h <;> decide

theorem witness_ClosingAccountsForIndices :
    let c := { shell .measuring with boundary := 3 }
    c.boundary ≤ 5 ∧ c.summary.missing + (5 - c.boundary) ≤ 65535 ∧ c.summary.reported < 65535 ∧ c.summary.lost < 65535 := by
  decide +kernel

/-- Extremes absent and held; an eccentricity known and UNKNOWN; a length within the indices, beyond 1023, of 0, and without a product. -/
theorem witness_ClosingAccountsForIndices_fold :
    let held : Summary := { Summary.zero with minWall := some ⟨18000, 2, 1, 410⟩, maxWall := some ⟨23000, 2⟩, maxEcc := some ⟨40, 2⟩ }
    let c (l : Nat) : ShellContext := { shell .tailing with length := some l }
    (Summary.zero.minWall = none ∧ Summary.zero.maxWall = none ∧ Summary.zero.maxEcc = none)
    ∧ (held.minWall = some ⟨18000, 2, 1, 410⟩ ∧ held.maxWall = some ⟨23000, 2⟩ ∧ held.maxEcc = some ⟨40, 2⟩)
    ∧ ((judge product 0 fourSectors false).ecc = some 95 ∧ (judge product 0 { fourSectors with sectors := 6 } false).ecc = none)
    ∧ ((c 6000).length = some 6000 ∧ (shellReport product (c 6000)).summary.reasons.outOfRange = 0)
    ∧ (shellReport product (c 204801)).summary.reasons.outOfRange = 1
    ∧ (c 0).length = some 0 ∧ ({ (shell .tailing).flags with noProduct := true } : ShellFlags).noProduct = true := by decide +kernel

theorem witness_SegmentReportOffered :
    ((filled 62 0 1).rqu.segments ≤ 62 ∧ (filled 62 0 1).rqu.entries.length + (filled 62 0 1).rqu.reservations ≤ 64
      ∧ (filled 62 0 1).rqu.segments = 62)
    ∧ ((filled 61 2 1).rqu.segments ≤ 62 ∧ (filled 61 2 1).rqu.entries.length + (filled 61 2 1).rqu.reservations = 64)
    ∧ ((filled 61 1 1).rqu.segments ≠ 62 ∧ (filled 61 1 1).rqu.segments ≤ 62
      ∧ (filled 61 1 1).rqu.entries.length + (filled 61 1 1).rqu.reservations ≤ 63) := by decide +kernel

/-- Each row of the verdict is reached (7.6.3). -/
theorem witness_ShellVerdictRows :
    let c (x : Summary) : ShellContext := { shell .tailing with length := some 0, summary := x }
    (shellReport product (c { Summary.zero with thin := 1 })).verdict = .reject
    ∧ (shellReport product (c { Summary.zero with eccentric := 4 })).verdict = .reject
    ∧ (shellReport product (c { Summary.zero with eccentric := 3, lost := 1 })).verdict = .unverified
    ∧ (shellReport product (c Summary.zero)).verdict = .accept := by decide +kernel

/-- A station in which every queue of the capacities holds something. -/
def busy : State :=
  { measuring with
    lcp := (answering 8).lcp
    mtr := { (sampled measuring).mtr with announce := [1, 2, 3, 4] }
    rsq := ⟨[.gate ⟨.a, false, 1000001⟩, .shot ⟨3, 1000002, 1, 1137, false, []⟩]⟩
    wmb := ⟨[⟨0, 41, 0, 16, List.replicate 16 none⟩]⟩
    rqu := (filled 61 2 1).rqu }

theorem witness_StepKeepsCapacities : busy.Capacities ∧ step busy = .next { busy with partTime := busy.partTime + 1 } := by
  refine ⟨?_, rfl⟩
  refine ⟨?_, ?_, ?_, ?_, ?_, ?_⟩
  · unfold State.BuffersBounded; decide +kernel
  · refine ⟨by decide +kernel, ?_⟩
    show List.IsChain _ [(⟨1000000, 500000, 4000⟩ : Sample)]
    exact .singleton _
  · unfold State.AnnounceBounded; decide +kernel
  · unfold State.ItemsBounded; decide +kernel
  · unfold State.WindowBounded; decide +kernel
  · unfold State.RoomReserved; decide +kernel

theorem witness_StepKeepsHeadsAndLevel : running.HeadsAndLevel ∧ step running = .next { running with partTime := running.partTime + 1 } := by
  refine ⟨⟨?_, by decide +kernel⟩, rfl⟩
  unfold State.HeadLawful
  decide +kernel

/-- Either transmitter idle with nothing waiting, and both busy with frames waiting. -/
theorem witness_StepKeepsOwnership :
    (measuring.Ownership ∧ step measuring = .next { measuring with partTime := measuring.partTime + 1 })
    ∧ (answering 8).IdleMeansNothingWaits := by
  refine ⟨⟨⟨⟨?_, by decide +kernel, by decide +kernel, by decide +kernel⟩, ?_, ?_, ?_⟩, rfl⟩, ?_⟩
  · intro i c h
    have h0 : measuring.ctx 0 = some (shell .measuring) := by decide +kernel
    have h1 : measuring.ctx 1 = none := by decide +kernel
    match i with
    | 0 =>
      rw [h0] at h
      cases h
      unfold ShellContext.Lawful
      decide +kernel
    | 1 =>
      rw [h1] at h
      cases h
  · intro h
    cases h
  · unfold State.AddressOwn; decide +kernel
  · unfold State.IdleMeansNothingWaits; decide +kernel
  · unfold State.IdleMeansNothingWaits; decide +kernel

theorem witness_StepKeepsTallies :
    (fired .measure).TalliesAccount
    ∧ step (fired .measure) = .next { fired .measure with partTime := (fired .measure).partTime + 1 } := by
  refine ⟨⟨by decide +kernel, by decide +kernel, by decide +kernel, by decide +kernel, by decide +kernel, by decide +kernel, ?_⟩, rfl⟩
  intro h round hr
  refine ⟨⟨1, 1, 0, 0, 0, false⟩, by decide +kernel, ?_⟩
  have h0 : (fired .measure).fire 0 = .outstanding 5 .measure 50400 1 := by decide +kernel
  have h1 : ∀ i : Fin 8, i ≠ 0 → (fired .measure).fire i = .idle := by decide +kernel
  by_cases e : h = 0
  · subst e
    rw [h0] at hr
    simpa [FireRecord.inRound] using hr
  · rw [h1 h e] at hr
    cases hr

end Sys2Proof.Tests
end

section
/-! PROOFS. The pair search (R14): how it goes on along the candidates, when it finds no pair, and which pair it finds. -/

namespace Sys2Proof.Machine

/-- The corrected separation of two candidates lies in the gate (R13, R14). -/
def InGate (k lo hi first second : Nat) : Prop :=
  lo ≤ corrected k (second - first) ∧ corrected k (second - first) ≤ hi

/-- The pair of the candidate `first` with candidate `j` of a list, as the search reports it (R14). -/
def pairWith (k first : Nat) (cs : List Nat) (j : Nat) : EchoPair :=
  ⟨first, cs.getD j 0, corrected k (cs.getD j 0 - first), cs.drop (j + 1)⟩

theorem partner_cons_of_inGate {k lo hi first c : Nat} (rest : List Nat) (g : InGate k lo hi first c) :
    partner k lo hi first (c :: rest) = some (pairWith k first (c :: rest) 0) :=
  if_pos g

theorem partner_cons_of_not_inGate {k lo hi first c : Nat} (rest : List Nat) (g : ¬ InGate k lo hi first c) :
    partner k lo hi first (c :: rest) = partner k lo hi first rest :=
  if_neg g

/-- A candidate has no partner exactly when no later one is in its gate. -/
theorem partner_eq_none_iff (k lo hi first : Nat) (cs : List Nat) :
    partner k lo hi first cs = none ↔ ∀ j, j < cs.length → ¬ InGate k lo hi first (cs.getD j 0) := by
  induction cs with
  | nil => simp [partner]
  | cons c rest ih =>
    by_cases g : InGate k lo hi first c
    · rw [partner_cons_of_inGate rest g]
      simpa using ⟨0, by simp, g⟩
    · rw [partner_cons_of_not_inGate rest g, ih]
      refine ⟨fun none_ j hj => ?_, fun none_ j hj => none_ (j + 1) (by simpa using hj)⟩
      cases j with
      | zero => exact g
      | succ j => exact none_ j (by simpa using hj)

/-- The partner found is in the gate, and no candidate before it is. -/
theorem partner_eq_some {k lo hi first : Nat} {cs : List Nat} {p : EchoPair} (found : partner k lo hi first cs = some p) :
    ∃ j, j < cs.length ∧ InGate k lo hi first (cs.getD j 0) ∧ p = pairWith k first cs j
      ∧ ∀ j', j' < j → ¬ InGate k lo hi first (cs.getD j' 0) := by
  induction cs with
  | nil => cases found
  | cons c rest ih =>
    by_cases g : InGate k lo hi first c
    · rw [partner_cons_of_inGate rest g] at found
      exact ⟨0, by simp, g, (Option.some.inj found).symm, fun j' hj' => absurd hj' (Nat.not_lt_zero j')⟩
    · rw [partner_cons_of_not_inGate rest g] at found
      obtain ⟨j, hj, inside, rfl, before⟩ := ih found
      refine ⟨j + 1, by simpa using hj, inside, rfl, fun j' hj' => ?_⟩
      cases j' with
      | zero => exact g
      | succ j' => exact before j' (by omega)

/-- The search takes the first candidate's partner, and looks further only when it has none. -/
theorem findPair_cons (k lo hi first : Nat) (rest : List Nat) :
    findPair k lo hi (first :: rest) = (partner k lo hi first rest).or (findPair k lo hi rest) := by
  rw [findPair]
  cases partner k lo hi first rest <;> rfl

/-- The search finds nothing exactly when no candidate has a later one in its gate. -/
theorem findPair_eq_none_iff (k lo hi : Nat) (cs : List Nat) :
    findPair k lo hi cs = none ↔ ∀ i j, i < j → j < cs.length → ¬ InGate k lo hi (cs.getD i 0) (cs.getD j 0) := by
  induction cs with
  | nil => simp [findPair]
  | cons first rest ih =>
    rw [findPair_cons, Option.or_eq_none_iff, partner_eq_none_iff, ih]
    constructor
    · rintro ⟨alone, later⟩ i j hij hj
      obtain ⟨j, rfl⟩ : ∃ n, j = n + 1 := ⟨j - 1, by omega⟩
      have hj : j < rest.length := by simpa using hj
      cases i with
      | zero => exact alone j hj
      | succ i => exact later i j (by omega) hj
    · intro none_
      exact ⟨fun j hj => none_ 0 (j + 1) (by omega) (by simpa using hj),
        fun i j hij hj => none_ (i + 1) (j + 1) (by omega) (by simpa using hj)⟩

/-- Fewer than two candidates make no pair. -/
theorem findPair_of_few {k lo hi : Nat} {cs : List Nat} (few : cs.length < 2) : findPair k lo hi cs = none :=
  (findPair_eq_none_iff k lo hi cs).2 fun i j hij hj => by omega

/-- The pair found is in the gate; its second echo is the first partner of its first, and no earlier candidate has a partner. -/
theorem findPair_eq_some {k lo hi : Nat} {cs : List Nat} {p : EchoPair} (found : findPair k lo hi cs = some p) :
    ∃ i j, i < j ∧ j < cs.length ∧ InGate k lo hi (cs.getD i 0) (cs.getD j 0) ∧ p = pairWith k (cs.getD i 0) cs j
      ∧ (∀ j', i < j' → j' < j → ¬ InGate k lo hi (cs.getD i 0) (cs.getD j' 0))
      ∧ (∀ i' j', i' < i → i' < j' → j' < cs.length → ¬ InGate k lo hi (cs.getD i' 0) (cs.getD j' 0)) := by
  induction cs with
  | nil => cases found
  | cons first rest ih =>
    rw [findPair_cons, Option.or_eq_some_iff] at found
    rcases found with found | ⟨alone, found⟩
    · obtain ⟨j, hj, inside, rfl, before⟩ := partner_eq_some found
      refine ⟨0, j + 1, by omega, by simpa using hj, inside, rfl, fun j' h0 hj' => ?_, fun i' _ hi' => absurd hi' (Nat.not_lt_zero i')⟩
      obtain ⟨j', rfl⟩ : ∃ n, j' = n + 1 := ⟨j' - 1, by omega⟩
      exact before j' (by omega)
    · obtain ⟨i, j, hij, hj, inside, rfl, between, unpaired⟩ := ih found
      refine ⟨i + 1, j + 1, by omega, by simpa using hj, inside, rfl, fun j' h1 h2 => ?_, fun i' j' hi' h1 h2 => ?_⟩
      · obtain ⟨j', rfl⟩ : ∃ n, j' = n + 1 := ⟨j' - 1, by omega⟩
        exact between j' (by omega) (by omega)
      · obtain ⟨j', rfl⟩ : ∃ n, j' = n + 1 := ⟨j' - 1, by omega⟩
        have hj' : j' < rest.length := by simpa using h2
        cases i' with
        | zero => exact (partner_eq_none_iff k lo hi first rest).1 alone j' hj'
        | succ i' => exact unpaired i' j' (by omega) (by omega) hj'

/-- The separation of the pair found lies in the gate. -/
theorem findPair_sep {k lo hi : Nat} {cs : List Nat} {p : EchoPair} (found : findPair k lo hi cs = some p) :
    lo ≤ p.sep ∧ p.sep ≤ hi := by
  obtain ⟨i, j, _, _, inside, rfl, _⟩ := findPair_eq_some found
  exact inside

/-- Settles O49. -/
theorem pairSearchTakesFirst : Obligations.PairSearchTakesFirst := by
  intro k lo hi cs inGate
  exact ⟨findPair_eq_none_iff k lo hi cs, fun p found => findPair_eq_some found⟩

end Sys2Proof.Machine
end

section
/-! PROOFS. The figures of an evaluation: rounding (R22), the grade curve (R9, R10, R192), the gate in time (R11) and the walls
(R15, R16). -/

namespace Sys2Proof.Machine

/-! ### Rounding (R22) -/

/-- On natural figures the two roundings are one. -/
theorem roundDivInt_natCast (a b : Nat) : roundDivInt a b = roundDiv a b := by
  simp [roundDivInt]

theorem roundDiv_nearest (a b : Nat) (hb : 0 < b) : RoundsTo a b (roundDiv a b) :=
  roundDivInt_natCast a b ▸ roundDivInt_nearest a b hb

theorem corrected_nearest (k x : Nat) : RoundsTo (x * k : Nat) 65536 (corrected k x) :=
  roundDiv_nearest (x * k) 65536 (by decide)

/-- A quotient rounds to at most a limit that the divisor's multiple reaches. -/
theorem roundDiv_le {a b n : Nat} (hb : 0 < b) (h : a ≤ n * b) : roundDiv a b ≤ n := by
  rw [roundDiv, ← Nat.lt_succ_iff, Nat.div_lt_iff_lt_mul (by omega)]
  nlinarith

/-- A quotient rounds to at least a limit whose multiple it reaches. -/
theorem le_roundDiv {a b n : Nat} (hb : 0 < b) (h : n * b ≤ a) : n ≤ roundDiv a b := by
  rw [roundDiv, Nat.le_div_iff_mul_le (by omega)]
  nlinarith

/-! ### The grade curve (R9, R10, R192) -/

/-- Between two points the interpolated figure never falls below 0. -/
theorem interpolate_eq (y0 y1 : Nat) {f : Nat} (hf : f < 40) :
    (interpolate y0 y1 f : Int) = y0 + roundDivInt (((y1 : Int) - y0) * f) 40 := by
  have near := (roundDivInt_nearest (((y1 : Int) - y0) * f) 40 (by decide)).1
  have fall : -(39 * y0 : Int) ≤ ((y1 : Int) - y0) * f := by nlinarith
  have above := le_abs_self (((y1 : Int) - y0) * f - roundDivInt (((y1 : Int) - y0) * f) 40 * (40 : Nat))
  rw [interpolate]
  omega

theorem index_of_temperature (i : Nat) {f : Nat} (hf : f < 40) : (40 * i + f) / 40 = i ∧ (40 * i + f) % 40 = f := by
  omega

theorem velocityAt_between (points : List GradePoint) {i f : Nat} (hi : i < 32) (hf : f < 40) :
    velocityAt points (40 * i + f) = interpolate (curveAt points i).velocity (curveAt points (i + 1)).velocity f := by
  obtain ⟨index, remainder⟩ := index_of_temperature i hf
  rw [velocityAt, index, remainder, if_pos hi]

theorem shrinkAt_between (points : List GradePoint) {i f : Nat} (hi : i < 32) (hf : f < 40) :
    shrinkAt points (40 * i + f) = interpolate (curveAt points i).shrink (curveAt points (i + 1)).shrink f := by
  obtain ⟨index, remainder⟩ := index_of_temperature i hf
  rw [shrinkAt, index, remainder, if_pos hi]

/-- The interpolated figure is the lower point's moved by the rounded part of the difference. -/
theorem interpolate_nearest (y0 y1 : Nat) {f : Nat} (hf : f < 40) :
    ∃ q : Int, (interpolate y0 y1 f : Int) = y0 + q ∧ RoundsTo (((y1 : Int) - y0) * f) 40 q :=
  ⟨_, interpolate_eq y0 y1 hf, roundDivInt_nearest _ 40 (by decide)⟩

theorem State.gradePart_loaded {s : State} {i : Nat} {part : GradePart} (h : s.tst.grades[i]? = some (some part)) :
    s.gradePart i = part := by
  simp [State.gradePart, h]

/-- Point `11 n + i` of a curve is point `i` of its part `n`. -/
theorem State.curvePoints_getD (s : State) (curve : Nat) (n : Fin 3) (i : Fin 11) :
    (s.curvePoints curve).getD (11 * n.val + i.val) ⟨0, 0⟩ = (s.gradePart (3 * curve + n.val))[i] := by
  have hi := i.isLt
  have inPart (part : GradePart) : part.toList[i.val]? = some part[i] := by simp
  have position : (s.curvePoints curve)[11 * n.val + i.val]? = (s.gradePart (3 * curve + n.val)).toList[i.val]? := by
    unfold State.curvePoints
    match n with
    | 0 =>
      rw [List.append_assoc, List.getElem?_append_left (by simp)]
      simp
    | 1 =>
      rw [List.getElem?_append_left (by simp; omega), List.getElem?_append_right (by simp)]
      simp
    | 2 =>
      rw [List.getElem?_append_right (by simp)]
      simp
  rw [List.getD_eq_getElem?_getD, position, inPart, Option.getD_some]

/-! ### The gate in time (R11) -/

theorem gateLo_le_iff {v : Nat} (hv : 0 < v) (wall n : Nat) : gateLo wall v ≤ n ↔ wall * 40000 ≤ n * v := by
  rw [gateLo, ceilDiv, ← Nat.lt_succ_iff, Nat.div_lt_iff_lt_mul hv, Nat.succ_mul]
  omega

theorem le_gateHi_iff {v : Nat} (hv : 0 < v) (wall n : Nat) : n ≤ gateHi wall v ↔ n * v ≤ wall * 40000 :=
  Nat.le_div_iff_mul_le hv

/-! ### The wall of a pair (R15, R16) -/

theorem distance_eq_abs (a b : Nat) : (distance a b : Int) = |(a : Int) - b| := by
  rw [distance, Int.abs_eq_natAbs]
  omega

/-- Without a confirming echo the hot wall comes from the pair alone. -/
theorem hotWall_unconfirmed {k tol v : Nat} {p : EchoPair}
    (far : ∀ tm ∈ p.rest, (tol : Int) < |(corrected k (tm - p.second) : Int) - p.sep|) :
    hotWall k tol v p = min 65535 (roundDiv (v * p.sep) 40000) := by
  have none_ : confirming k tol p = none := by
    rw [confirming, List.find?_eq_none]
    intro tm mem
    have := far tm mem
    rw [← distance_eq_abs] at this
    rw [decide_eq_true_eq]
    omega
  rw [hotWall, none_]

/-- The first echo of the rest that lies within the tolerance confirms, and the hot wall comes from it and the first echo. -/
theorem hotWall_confirmed {k tol v tm : Nat} {p : EchoPair} {before after : List Nat} (split : p.rest = before ++ tm :: after)
    (near : |(corrected k (tm - p.second) : Int) - p.sep| ≤ tol)
    (far : ∀ tm' ∈ before, (tol : Int) < |(corrected k (tm' - p.second) : Int) - p.sep|) :
    hotWall k tol v p = min 65535 (roundDiv (v * corrected k (tm - p.first)) 80000) := by
  have first : confirming k tol p = some tm := by
    rw [confirming, List.find?_eq_some_iff_append]
    refine ⟨?_, before, after, split, fun tm' mem => ?_⟩
    · rw [← distance_eq_abs] at near
      rw [decide_eq_true_eq]
      omega
    · have := far tm' mem
      rw [← distance_eq_abs] at this
      rw [Bool.not_eq_true', decide_eq_false_iff_not]
      omega
  rw [hotWall, first]

/-- The wall of a separation within the gate in time lies within the product's gate; a velocity of 0 gives wall 0,
which may lie below it. -/
theorem wall_of_gate {lo hi v sep : Nat} (inside : gateLo lo v ≤ sep ∧ sep ≤ gateHi hi v) :
    roundDiv (v * sep) 40000 ≤ hi ∧ (0 < v → lo ≤ roundDiv (v * sep) 40000) := by
  refine ⟨roundDiv_le (by decide) ?_, fun hv => le_roundDiv (by decide) ?_⟩
  · rcases Nat.eq_zero_or_pos v with rfl | hv
    · simp
    · exact Nat.mul_comm sep v ▸ (le_gateHi_iff hv hi sep).1 inside.2
  · exact Nat.mul_comm sep v ▸ (gateLo_le_iff hv lo sep).1 inside.1

end Sys2Proof.Machine
end

section
/-! PROOFS. The evaluation ladder (R4 to R8, R12, R14), and what an evaluated shot leaves (R2, R7, R18, R19, R100). -/

namespace Sys2Proof.Machine

/-! ### The ladder -/

theorem validTemp_of_le {raw : Nat} (h : raw ≤ 1500) : validTemp raw = some raw :=
  if_pos h

theorem validTemp_of_gt {raw : Nat} (h : 1500 < raw) : validTemp raw = none :=
  if_neg (by omega)

theorem evaluate_of_energyLow {x : EvalInput} (h : x.energyLow = true) : evaluate x = .lowEnergy := by
  simp [evaluate, h]

theorem evaluateHeld_of_energyLow {x : EvalInput} (h : x.energyLow = true) : evaluateHeld x = x.held := by
  simp [evaluateHeld, h]

theorem evaluateHeld_of_energy {x : EvalInput} (h : x.energyLow = false) : evaluateHeld x = (validTemp x.temp).or x.held := by
  simp [evaluateHeld, heldAfter, h]

theorem evaluate_of_noTemperature {x : EvalInput} (h : x.energyLow = false) (held : evaluateHeld x = none) :
    evaluate x = .noTemperature := by
  rw [evaluateHeld_of_energy h] at held
  simp [evaluate, heldAfter, h, held]

theorem evaluate_of_temperature {x : EvalInput} {temp : Nat} (h : x.energyLow = false) (held : evaluateHeld x = some temp) :
    evaluate x = evaluateAt x (min 1280 temp) := by
  rw [evaluateHeld_of_energy h] at held
  simp [evaluate, heldAfter, h, held]

/-- The pair that the search finds among an evaluation's candidates at a clamped temperature (R11, R12, R14). -/
def EvalInput.pairAt (x : EvalInput) (theta : Nat) : Option EchoPair :=
  findPair x.k (gateLo x.product.wallLo (velocityAt x.points theta)) (gateHi x.product.wallHi (velocityAt x.points theta))
    (candidates x.product.ampMin x.echoes)

theorem evaluateAt_of_few {x : EvalInput} {theta : Nat} (few : (candidates x.product.ampMin x.echoes).length < 2) :
    evaluateAt x theta = .noEcho :=
  if_pos few

theorem evaluateAt_of_noPair {x : EvalInput} {theta : Nat} (enough : 2 ≤ (candidates x.product.ampMin x.echoes).length)
    (found : x.pairAt theta = none) : evaluateAt x theta = .noPair := by
  unfold EvalInput.pairAt at found
  simp [evaluateAt, found, Nat.not_lt.2 enough]

theorem evaluateAt_of_pair {x : EvalInput} {theta : Nat} {p : EchoPair} (found : x.pairAt theta = some p) :
    evaluateAt x theta = .good (coldWall (hotWall x.k x.product.repeatTol (velocityAt x.points theta) p) (shrinkAt x.points theta)) := by
  unfold EvalInput.pairAt at found
  have enough : ¬ (candidates x.product.ampMin x.echoes).length < 2 := fun few => by simp [findPair_of_few few] at found
  simp [evaluateAt, found, enough]

/-! ### An evaluated shot -/

theorem State.resolveBracketed_placed {s : State} {x : Shot} {b : Sample × Sample} {p : Placed}
    (h : s.place x.head x.time b = .placed p) : s.resolveBracketed x b = s.evaluateShot x p := by
  rw [State.resolveBracketed, h]

/-- A reason counted for a live slot changes the count in its context alone. -/
theorem State.countReason_live {s : State} {i : Fin 2} {c : ShellContext} (live : s.ctx i = some c) (r : Reason) :
    s.countReason i r = s.setCtx i (some (c.count r)) := by
  rw [State.countReason, State.modCtx, live, Option.map_some]

/-- The context of a shot's shell with the held temperature of its evaluation (R7). -/
def State.tempered (s : State) (x : Shot) (c : ShellContext) : ShellContext :=
  { c with heldTemp := evaluateHeld (s.evalInput x c) }

/-- The state that an evaluation leaves to the Wall Map Builder: the outcome recorded and the held temperature written (R7, R18). -/
def State.evaluated (s : State) (x : Shot) (p : Placed) (c : ShellContext) (good : Bool) : State :=
  (s.recordOutcome x.head good).setCtx p.slot (some (s.tempered x c))

theorem State.evaluated_countReason (s : State) (x : Shot) (p : Placed) (c : ShellContext) (good : Bool) (r : Reason) :
    (s.evaluated x p c good).countReason p.slot r
      = (s.evaluated x p c good).setCtx p.slot (some ((s.tempered x c).count r)) :=
  countReason_live (setCtx_ctx _ p.slot _) r

theorem State.evaluated_usable (s : State) (x : Shot) (p : Placed) (c : ShellContext) (good : Bool) :
    ((s.evaluated x p c good).head x.head).usable = s.healthOf (shiftOutcome (s.head x.head).history good) := by
  have untouched : (s.evaluated x p c good).head x.head = (s.recordOutcome x.head good).head x.head := rfl
  rw [untouched, recordOutcome_head, if_pos rfl]

theorem ShellContext.curveBound_iff (c : ShellContext) :
    c.curveBound = true ↔ c.flags.noProduct = false ∧ c.flags.noGrade = false := by
  simp [ShellContext.curveBound]

section
variable {s : State} {x : Shot} {p : Placed} {c : ShellContext}

/-- A shot on a shell without a product or a curve is counted as NO_PRODUCT, and nothing else happens. -/
theorem State.evaluateShot_unbound (live : s.ctx p.slot = some c) (unbound : c.flags.noProduct = true ∨ c.flags.noGrade = true) :
    s.evaluateShot x p = s.setCtx p.slot (some (c.count .noProduct)) := by
  have notBound : ¬ c.curveBound = true := by
    rw [ShellContext.curveBound_iff]
    rintro ⟨product, grade⟩
    simp [product, grade] at unbound
  rw [← countReason_live live, State.evaluateShot, live]
  exact if_neg notBound

/-- A shot on a shell with a product and a curve is evaluated, its outcome recorded, and the result handed on. -/
theorem State.evaluateShot_bound {e : Evaluation} (live : s.ctx p.slot = some c) (bound : c.curveBound = true)
    (he : evaluate (s.evalInput x c) = e) : s.evaluateShot x p = (s.evaluated x p c e.isGood).deliver x.head p e := by
  subst he
  rw [State.evaluateShot, live]
  exact if_pos bound

/-- A rejection is a bad outcome of the head and counts its reason. -/
theorem State.evaluateShot_rejected (x : Shot) (e : Evaluation) (r : Reason) (live : s.ctx p.slot = some c) (bound : c.curveBound = true)
    (bad : e.isGood = false) (reason : ∀ t : State, t.deliver x.head p e = t.countReason p.slot r)
    (he : evaluate (s.evalInput x c) = e) :
    s.evaluateShot x p = (s.evaluated x p c false).setCtx p.slot (some ((s.tempered x c).count r)) := by
  rw [evaluateShot_bound live bound he, bad, reason, evaluated_countReason]

/-- A good wall of a head that is then USABLE goes to the window. -/
theorem State.evaluateShot_usable {wall : Nat} (live : s.ctx p.slot = some c) (bound : c.curveBound = true)
    (he : evaluate (s.evalInput x c) = .good wall) (usable : s.healthOf (shiftOutcome (s.head x.head).history true) = true) :
    s.evaluateShot x p = (s.evaluated x p c true).acceptGood p wall := by
  rw [evaluateShot_bound live bound he]
  exact if_pos ((evaluated_usable s x p c true).trans usable)

/-- A good wall of a head that is then SUSPECT counts WITHHELD. -/
theorem State.evaluateShot_suspect {wall : Nat} (live : s.ctx p.slot = some c) (bound : c.curveBound = true)
    (he : evaluate (s.evalInput x c) = .good wall) (suspect : s.healthOf (shiftOutcome (s.head x.head).history true) = false) :
    s.evaluateShot x p = (s.evaluated x p c true).setCtx p.slot (some ((s.tempered x c).count .withheld)) := by
  rw [evaluateShot_bound live bound he, ← evaluated_countReason]
  exact if_neg fun usable => Bool.false_ne_true (suspect.symm.trans ((evaluated_usable s x p c true).symm.trans usable))

end

/-- Settles O50: the ladder, then its figures, then what an evaluated shot leaves. -/
theorem evaluationOutcomes : Obligations.EvaluationOutcomes := by
  refine ⟨fun x => ⟨fun low => ⟨evaluate_of_energyLow low, evaluateHeld_of_energyLow low⟩, ?_, ?_, evaluate_of_noTemperature, ?_⟩,
    roundDiv_nearest, corrected_nearest, ?_, ?_, ?_, fun _ _ _ _ => State.resolveBracketed_placed, ?_⟩
  · intro energy valid
    rw [evaluateHeld_of_energy energy, validTemp_of_le valid, Option.some_or]
  · intro energy invalid
    rw [evaluateHeld_of_energy energy, validTemp_of_gt invalid, Option.none_or]
  · intro temp energy held v shrink cs found off
    rw [evaluate_of_temperature energy held]
    refine ⟨evaluateAt_of_few, evaluateAt_of_noPair, fun p pair far => ⟨?_, wall_of_gate (findPair_sep pair)⟩,
      fun p tm before after pair split near far => ?_⟩
    · rw [evaluateAt_of_pair pair, hotWall_unconfirmed far]
      rfl
    · rw [evaluateAt_of_pair pair, hotWall_confirmed split near far]
      rfl
  · intro points point
    refine ⟨⟨rfl, rfl⟩, fun i f hi hf => ⟨?_, ?_⟩⟩
    · rw [velocityAt_between points hi hf]
      exact interpolate_nearest _ _ hf
    · rw [shrinkAt_between points hi hf]
      exact interpolate_nearest _ _ hf
  · intro s curve n i part loaded
    rw [s.curvePoints_getD, State.gradePart_loaded loaded]
  · intro wall v hv
    exact ⟨⟨(gateLo_le_iff hv wall _).1 le_rfl, fun n => (gateLo_le_iff hv wall n).2⟩,
      (le_gateHi_iff hv wall _).1 le_rfl, fun n => (le_gateHi_iff hv wall n).2⟩
  · intro s x p c live counting input c' history usable recorded rejected s'
    refine ⟨State.evaluateShot_unbound live, fun product grade => ?_⟩
    have bound : c.curveBound = true := c.curveBound_iff.2 ⟨product, grade⟩
    exact ⟨State.evaluateShot_rejected x .lowEnergy .lowEnergy live bound rfl fun _ => rfl,
      State.evaluateShot_rejected x .noTemperature .noTemperature live bound rfl fun _ => rfl,
      State.evaluateShot_rejected x .noEcho .noEcho live bound rfl fun _ => rfl,
      State.evaluateShot_rejected x .noPair .noPair live bound rfl fun _ => rfl,
      fun wall good => ⟨State.evaluateShot_usable live bound good, State.evaluateShot_suspect live bound good⟩⟩

end Sys2Proof.Machine
end

section
/-! PROOFS. How a step ends (R157): what the effects of an event leave once an idle upstream transmitter has chosen, for the effects that
claim nothing, raise a notice, report an anomaly, or answer a command; and the commands that are taken (R150, R162, R164). -/

namespace Sys2Proof.Machine

/-! ### The beginning and the end of a step -/

/-- The state in which the effects of an event at part time `t` begin: no claimant is remembered yet (log 26). -/
def State.begun (s : State) (t : PartTime) : State :=
  (s.setTime t).setReady none

theorem acting_of_rstHigh {s : State} (rst : s.rstHigh = true) (t : PartTime) (f : State → State) :
    acting t s f = (f (s.begun t)).settled.setReady s.ready :=
  if_pos rst

theorem actingTimed_of_rstHigh {s : State} (rst : s.rstHigh = true) (f : State → State) :
    actingTimed s f = (f (s.setReady none)).settled.setReady s.ready :=
  if_pos rst

/-- Effects whose first claimant is the notice set: an idle transmitter takes the notice frame. -/
theorem State.settled_notices (u : State) (any : u.rqu.notices.any = true) :
    ((u.setReady none).claim .notices).settled.setReady u.ready = u.notified := by
  unfold State.notified
  split
  · rename_i idle
    rw [State.settled_idle ((u.setReady none).claim .notices) rfl idle]
    simp only [State.chooseFirst, State.claim_rqu, State.setReady_rqu, any, if_true]
    rfl
  · rename_i busy
    rw [State.settled_same ((u.setReady none).claim .notices) (.inr busy)]
    rfl

/-- Effects that report an anomaly and claim nothing else leave the capture of the rule (R173). -/
theorem State.settled_report (u : State) (kind : CaptureKind) (source : CaptureSource) (time : PartTime) (detail : Nat) :
    ((u.setReady none).report kind source time detail).settled.setReady u.ready = u.captures kind source time detail := by
  unfold State.report State.captures
  rw [State.setReady_cmu]
  cases u.cmu.capture with
  | none =>
    exact State.settled_notices
      { u with
        cmu := { u.cmu with capture := some ⟨kind, source, time, detail⟩ }
        rqu := { u.rqu with notices := { u.rqu.notices with captureHeld := true } } } (by simp [Notices.any])
  | some a => rfl

/-! ### Answers (R156, R165) -/

section
variable (u : State) (t : PartTime) (h : CommandHeader) (code : Byte) (args : Bytes) (status : Status) (data : Bytes)

/-- An answer that is the step's only claimant is chosen by an idle transmitter, and waits for a busy one. -/
theorem State.settled_answer :
    ((⟨u.begun t, status, data⟩ : Reply).answered (commandFrame h code args)).settled.setReady u.ready
      = u.withAnswer t h status.code data := by
  unfold State.withAnswer
  split
  · rename_i idle
    rw [State.settled_idle ((⟨u.begun t, status, data⟩ : Reply).answered (commandFrame h code args)) (c := .answer) rfl idle]
    change State.setReady (State.sendAnswer _ (u.answerTo h status.code data)) _ = _
    unfold State.sendAnswer
    rcases u with ⟨_, _, _, _, _, _, _, _, _, _, ⟨progress, _, _, _, _⟩, _, _, _, _⟩
    cases progress <;> rfl
  · rename_i busy
    rw [State.settled_same ((⟨u.begun t, status, data⟩ : Reply).answered (commandFrame h code args)) (.inr busy)]
    rfl

/-- An answer behind a notice raised in the same step: an idle transmitter takes the notice, and the answer waits (log 26). -/
theorem State.settled_notice_answer (any : u.rqu.notices.any = true) :
    ((⟨(u.begun t).claim .notices, status, data⟩ : Reply).answered (commandFrame h code args)).settled.setReady u.ready
      = u.withNoticeThenAnswer t h status.code data := by
  unfold State.withNoticeThenAnswer State.notified
  split
  · rename_i idle
    rw [State.settled_idle ((⟨(u.begun t).claim .notices, status, data⟩ : Reply).answered (commandFrame h code args)) (c := .notices)
      rfl idle]
    have pending : ((⟨(u.begun t).claim .notices, status, data⟩ : Reply).answered (commandFrame h code args)).rqu.notices.any = true :=
      any
    simp only [State.chooseFirst, pending, if_true]
    rfl
  · rename_i busy
    rw [State.settled_same ((⟨(u.begun t).claim .notices, status, data⟩ : Reply).answered (commandFrame h code args)) (.inr busy)]
    rfl

end

/-! ### Commands that are taken (R150, R162 to R164) -/

/-- What `State.takes` says, part by part. -/
theorem State.takes_iff (s : State) (h : CommandHeader) :
    s.takes h = true ↔ s.rstHigh = true ∧ s.lcp.upDiscarding = false ∧ h.dest = s.lcp.address ∧ h.dest ≠ broadcast
      ∧ s.lcp.slot = none ∧ s.cmu.state = .idle := by
  simp [State.takes, broadcast, and_assoc]

/-- A command that is taken is run on the state at its part time, and answered; the transmitter then chooses. -/
theorem State.commandArrives_taken {s : State} {h : CommandHeader} (takes : s.takes h = true) (t : PartTime) (code : Byte) (args : Bytes)
    (cut : Cut) :
    s.commandArrives t h code args cut
      = (((s.begun t).runCommand t (commandFrame h code args) cut).answered (commandFrame h code args)).settled.setReady s.ready := by
  obtain ⟨rst, hears, own, addressed, slot, idle⟩ := (s.takes_iff h).1 takes
  rw [State.commandArrives, acting_of_rstHigh rst,
    State.upstreamArrival_consume (s.begun t) t (commandFrame h code args) cut hears own addressed,
    State.consume_command (s.begun t) t (commandFrame h code args) cut rfl slot idle addressed]

/-- A command that is taken, with what its owner leaves and no claimant but the answer. -/
theorem State.commandArrives_answered {s u : State} {h : CommandHeader} (takes : s.takes h = true) (ready : u.ready = s.ready)
    {t : PartTime} {code : Byte} {args : Bytes} {cut : Cut} {status : Status} {data : Bytes}
    (run : (s.begun t).runCommand t (commandFrame h code args) cut = ⟨u.begun t, status, data⟩) :
    s.commandArrives t h code args cut = u.withAnswer t h status.code data := by
  rw [commandArrives_taken takes, run, ← ready, settled_answer]

/-- A command that is taken, with what its owner leaves when it raises a notice. -/
theorem State.commandArrives_noticed {s u : State} {h : CommandHeader} (takes : s.takes h = true) (ready : u.ready = s.ready)
    (any : u.rqu.notices.any = true) {t : PartTime} {code : Byte} {args : Bytes} {cut : Cut} {status : Status} {data : Bytes}
    (run : (s.begun t).runCommand t (commandFrame h code args) cut = ⟨(u.begun t).claim .notices, status, data⟩) :
    s.commandArrives t h code args cut = u.withNoticeThenAnswer t h status.code data := by
  rw [commandArrives_taken takes, run, ← ready, settled_notice_answer _ _ _ _ _ _ _ any]

end Sys2Proof.Machine
end

section
/-! PROOFS. What one step can do to the firing schedule and to the condition of the heads: it acts on them at most once, in one of ten
ways, and leaves them undisturbed before and after. -/

namespace Sys2Proof.Machine

/-! ### What leaves the schedule and the heads undisturbed -/

/-- What an event leaves alone that acts on neither the schedule nor the condition of a head: FSC, the head table, and the state, the miss
count and the correction of each head. -/
structure Undisturbed (s s' : State) : Prop where
  fsc   : s'.fsc = s.fsc
  heads : s'.tst.heads = s.tst.heads
  state : ∀ h, (s'.head h).state = (s.head h).state
  miss  : ∀ h, (s'.head h).miss = (s.head h).miss
  k     : ∀ h, (s'.head h).k = (s.head h).k

namespace Undisturbed

theorem of_blocks {s s' : State} (fsc : s'.fsc = s.fsc) (table : s'.tst.heads = s.tst.heads) (heads : s'.hcu.heads = s.hcu.heads) :
    Undisturbed s s' := by
  have same : ∀ h, s'.head h = s.head h := fun h => by simp only [State.head, heads]
  exact ⟨fsc, table, fun h => by rw [same], fun h => by rw [same], fun h => by rw [same]⟩

theorem refl (s : State) : Undisturbed s s :=
  of_blocks rfl rfl rfl

theorem trans {a b c : State} (x : Undisturbed a b) (y : Undisturbed b c) : Undisturbed a c where
  fsc := y.fsc.trans x.fsc
  heads := y.heads.trans x.heads
  state := fun h => (y.state h).trans (x.state h)
  miss := fun h => (y.miss h).trans (x.miss h)
  k := fun h => (y.k h).trans (x.k h)

theorem of_resolution {s s' : State} (x : ResolutionFrame s s') : Undisturbed s s' :=
  ⟨x.fsc, by rw [x.tst], x.state, x.miss, x.k⟩

theorem of_choice {s s' : State} (x : ChoiceFrame s s') : Undisturbed s s' :=
  of_blocks x.fsc (by rw [x.tst]) (by rw [x.hcu])

theorem report (s : State) (kind : CaptureKind) (source : CaptureSource) (time : PartTime) (detail : Nat) :
    Undisturbed s (s.report kind source time detail) :=
  of_resolution (.report s kind source time detail)

theorem setTime (s : State) (t : PartTime) : Undisturbed s (s.setTime t) :=
  of_blocks rfl rfl rfl

theorem setReady (s : State) (x : Option Claimant) : Undisturbed s (s.setReady x) :=
  of_blocks rfl rfl rfl

theorem setPending (s : State) (q : List Instr) : Undisturbed s (s.setPending q) :=
  of_blocks rfl rfl rfl

theorem setMtr (s : State) (x : Mtr) : Undisturbed s (s.setMtr x) :=
  of_blocks rfl rfl rfl

theorem setLcp (s : State) (x : Lcp) : Undisturbed s (s.setLcp x) :=
  of_blocks rfl rfl rfl

/-! ### Resolution and the gates -/

theorem discardStale (s : State) (x : Shot) : Undisturbed s (s.discardStale x) := by
  unfold State.discardStale
  split
  · exact refl s
  · exact report s _ _ _ _

theorem shotArrival (s : State) (x : Shot) : Undisturbed s (s.shotArrival x) := by
  unfold State.shotArrival
  split_ifs
  · exact report s _ _ _ _
  · exact discardStale s x
  · exact of_resolution (.resolveShot s x)
  · exact report s _ _ _ _
  · exact of_blocks rfl rfl rfl

theorem gateArrival (s : State) (g : GateEdge) : Undisturbed s (s.gateArrival g) := by
  unfold State.gateArrival
  split_ifs
  · exact of_resolution (.resolveGate s g)
  · exact report s _ _ _ _
  · exact of_blocks rfl rfl rfl

theorem resolutionPass (s : State) (x : Sample) : Undisturbed s (s.resolutionPass x) := by
  obtain ⟨n, -, -, -, frame⟩ := s.passItems_spec x.tau s.rsq.items rfl
  have taken : Undisturbed s (s.setRsq ⟨s.rsq.items.drop n⟩) := of_blocks rfl rfl rfl
  exact taken.trans (of_resolution (frame.trans (.endOfPass _ x.enc)))

theorem motionSample (s : State) (t : PartTime) (x : Sample) (fault : Bool) : Undisturbed s (s.motionSample t x fault) := by
  unfold State.motionSample
  split_ifs
  · exact refl s
  · exact report s _ _ _ _
  · exact (setMtr s _).trans (resolutionPass _ x)

theorem motionFrame (s : State) (t : PartTime) (p : Bytes) : Undisturbed s (s.motionFrame t p) := by
  unfold State.motionFrame
  split_ifs
  · exact motionSample s t _ _
  · exact report s _ _ _ _

theorem setFilter (s : State) (line : GateLine) (f : GateFilter) : Undisturbed s (s.setFilter line f) := by
  cases line <;> exact of_blocks rfl rfl rfl

theorem takeEdge (s : State) (line : GateLine) (date : PartTime) : Undisturbed s (s.takeEdge line date) := by
  unfold State.takeEdge
  dsimp only
  split
  · exact setFilter s _ _
  · exact (setFilter s _ _).trans (gateArrival _ _)
  · exact (setFilter s _ _).trans (gateArrival _ _)

theorem lineChange (s : State) (line : GateLine) (t : PartTime) (high : Bool) : Undisturbed s (s.lineChange line t high) := by
  unfold State.lineChange State.beginChange
  dsimp only
  split_ifs
  · exact refl s
  · exact (setFilter s _ _).trans (setFilter _ _ _)
  · exact (setFilter s _ _).trans (takeEdge _ _ _)
  · exact (setFilter s _ _).trans (setFilter _ _ _)

theorem filterExpiry (s : State) (line : GateLine) : Undisturbed s (s.filterExpiry line) := by
  unfold State.filterExpiry
  split
  · exact refl s
  · exact (setTime s _).trans (takeEdge _ _ _)

/-! ### The calibration timer -/

theorem timerRequest (s : State) : Undisturbed s s.timerRequest := by
  unfold State.timerRequest
  split <;> exact of_blocks rfl rfl rfl

theorem timerExpiry (s : State) : Undisturbed s s.timerExpiry := by
  unfold State.timerExpiry
  split
  · exact refl s
  · exact ((setTime s _).trans (timerRequest _)).trans (of_blocks rfl rfl rfl)

theorem setupWritten (s : State) (t : PartTime) : Undisturbed s (s.setupWritten t) := by
  unfold State.setupWritten
  split
  · exact refl s
  · exact of_blocks rfl rfl rfl

/-! ### The links -/

theorem settled (s : State) : Undisturbed s s.settled :=
  of_choice (.settled s)

theorem downstreamFree (s : State) : Undisturbed s s.downstreamFree := by
  unfold State.downstreamFree
  split <;> exact of_blocks rfl rfl rfl

theorem enterDown (s : State) (t : PartTime) (f : LineFrame) : Undisturbed s (s.enterDown t f) := by
  unfold State.enterDown State.takeDown
  split_ifs
  · exact report s _ _ _ _
  · exact of_blocks rfl rfl rfl
  · exact (setLcp s _).trans (downstreamFree _)

theorem enterUp (s : State) (t : PartTime) (f : LineFrame) : Undisturbed s (s.enterUp t f) := by
  unfold State.enterUp
  split_ifs
  · exact report s _ _ _ _
  · exact of_blocks rfl rfl rfl

theorem downstreamArrival (s : State) (t : PartTime) (f : LineFrame) : Undisturbed s (s.downstreamArrival t f) := by
  unfold State.downstreamArrival
  split_ifs
  · exact refl s
  · exact enterUp s t f

theorem downstreamBytes (s : State) (t : PartTime) (received : Bytes) : Undisturbed s (s.downstreamBytes t received) := by
  unfold State.downstreamBytes
  split_ifs
  · exact refl s
  · split
    · exact refl s
    · exact downstreamArrival s t _
    · exact (report s _ _ _ _).trans (of_blocks rfl rfl rfl)

theorem finishUp (s : State) : Undisturbed s s.finishUp := by
  unfold State.finishUp
  dsimp only
  split <;> exact of_blocks rfl rfl rfl

theorem upstreamFree (s : State) : Undisturbed s s.upstreamFree :=
  (finishUp s).trans (of_choice (.arbitrate _))

theorem fallsIdle (s : State) (port : Receiver) : Undisturbed s (s.fallsIdle port) := by
  cases port <;> exact of_blocks rfl rfl rfl

theorem malformedShot (s : State) (t : PartTime) (h : Fin 8) (p : Bytes) : Undisturbed s (s.malformedShot t h p) := by
  unfold State.malformedShot
  dsimp only
  split_ifs
  · exact (report s _ _ _ _).trans (of_blocks rfl rfl rfl)
  · exact report s _ _ _ _

end Undisturbed

/-! ### The ways to act on the schedule or a head's condition -/

/-- What an event does to the schedule or the condition of a head. -/
inductive ScheduleAct : State → State → Prop
  | none (s : State) : ScheduleAct s s
  | start (s : State) (t : PartTime) : ScheduleAct s (s.startSchedule t).1
  | stop (s : State) : ScheduleAct s s.stopSchedule
  | headWritten (s : State) {index : Nat} (i : index ≤ 7) (c : Bytes) :
      ScheduleAct s ((s.setTst (s.tst.store 0 index c)).headWritten (headAt index))
  | restart (s : State) (t : PartTime) (cut : Cut) : ScheduleAct s (s.restart t cut)
  | coldReset (s : State) (cut : Cut) : ScheduleAct s (s.coldReset cut)
  | closeFire (s : State) {h : Fin 8} {seq : Byte} {kind : FireKind} {expiry : PartTime} {round : Nat}
      (awaited : s.fire h = .outstanding seq kind expiry round) (r : ShotReport) : ScheduleAct s (s.closeFire h round r)
  | windowExpiry (s : State) (h : Fin 8) : ScheduleAct s (s.windowExpiry h)
  | endCycle (s : State) : ScheduleAct s s.endCycle
  | reachEntry (s : State) (n : Nat) : ScheduleAct s (s.reachEntry n)

/-- A write of another table than the head table leaves the head table (R185). -/
theorem Tst.store_heads (x : Tst) {table : Nat} (other : table ≠ 0) (index : Nat) (c : Bytes) :
    (x.store table index c).heads = x.heads := by
  unfold Tst.store
  split
  · exact absurd rfl other
  all_goals rfl

theorem State.store_undisturbed (s : State) {table : Nat} (other : table ≠ 0) (index : Nat) (c : Bytes) :
    Undisturbed s (s.setTst (s.tst.store table index c)) :=
  .of_blocks rfl (Tst.store_heads _ other index c) rfl

/-- A write that is not refused names a table and one of its indices (R184). -/
theorem State.writeRefusal_none {s : State} {table index : Nat} {c : Bytes} (accepted : s.writeRefusal table index c = none) :
    table ≤ 9 ∧ index ≤ maxIndex table := by
  unfold State.writeRefusal at accepted
  split_ifs at accepted with unknown outside
  all_goals exact ⟨Nat.le_of_not_lt unknown, Nat.le_of_not_lt outside⟩

/-- The schedule and the heads' condition are acted on at most once, and undisturbed otherwise. -/
def ActsOnce (s s' : State) : Prop :=
  ∃ a b, Undisturbed s a ∧ ScheduleAct a b ∧ Undisturbed b s'

namespace ActsOnce

theorem of_act {s s' : State} (x : ScheduleAct s s') : ActsOnce s s' :=
  ⟨s, s', .refl s, x, .refl s'⟩

theorem of_undisturbed {s s' : State} (x : Undisturbed s s') : ActsOnce s s' :=
  ⟨s, s, .refl s, .none s, x⟩

theorem after {a b c : State} (x : Undisturbed a b) (y : ActsOnce b c) : ActsOnce a c := by
  obtain ⟨p, q, before, act, rest⟩ := y
  exact ⟨p, q, x.trans before, act, rest⟩

theorem andThen {a b c : State} (x : ActsOnce a b) (y : Undisturbed b c) : ActsOnce a c := by
  obtain ⟨p, q, before, act, rest⟩ := x
  exact ⟨p, q, before, act, rest.trans y⟩

/-- What acts once acts once as a step taken whole. -/
theorem whole (s : State) {f : State → State} (x : ∀ a, ActsOnce a (f a)) : ActsOnce s (whole s f) :=
  (after (.setReady s none) (x _)).andThen ((Undisturbed.settled _).trans (.setReady _ _))

theorem acting (t : PartTime) (s : State) {f : State → State} (x : ∀ a, ActsOnce a (f a)) : ActsOnce s (acting t s f) := by
  unfold Machine.acting
  split_ifs
  · exact after (.setTime s t) (whole _ x)
  · exact of_undisturbed (.setTime s t)

theorem actingTimed (s : State) {f : State → State} (x : ∀ a, ActsOnce a (f a)) : ActsOnce s (actingTimed s f) := by
  unfold Machine.actingTimed
  split_ifs
  · exact whole s x
  · exact of_undisturbed (.refl s)

/-! ### Commands -/

theorem writeTable (s : State) (t : PartTime) (table index : Nat) (c : Bytes) : ActsOnce s (s.writeTable t table index c).1 := by
  unfold State.writeTable
  split
  · exact of_undisturbed (.refl s)
  · rename_i accepted
    obtain ⟨known, inside⟩ := State.writeRefusal_none accepted
    unfold State.writeEffects
    split
    · exact of_act (.headWritten s inside c)
    · exact of_undisturbed ((State.store_undisturbed s (by decide) index c).trans (.setupWritten _ t))
    · rename_i other _
      exact of_undisturbed (State.store_undisturbed s other index c)

theorem actStart (s : State) (t : PartTime) : ActsOnce s (s.actStart t).state := by
  have started := of_act (.start s t)
  unfold State.actStart
  split <;> rename_i e <;> rwa [e] at started

theorem owner (s : State) (t : PartTime) (code : Nat) (args : Bytes) (isBroadcast : Bool) (cut : Cut) :
    ActsOnce s (s.owner t code args isBroadcast cut).state := by
  have nothing : ActsOnce s s := of_undisturbed (.refl s)
  unfold State.owner
  split
  · exact nothing
  · exact writeTable s t _ _ _
  · exact actStart s t
  · exact of_act (.stop s)
  · unfold State.actAnnounce
    split_ifs
    · exact nothing
    · exact nothing
    · exact of_undisturbed (.setMtr s _)
  · unfold State.actRequestCal
    split_ifs
    · exact nothing
    · exact nothing
    · exact nothing
    · exact of_undisturbed (.of_blocks rfl rfl rfl)
  · unfold State.actSetAddress
    split_ifs
    · exact nothing
    · exact of_undisturbed (.setLcp s _)
  · exact nothing
  · unfold State.actSetScratch
    dsimp only
    split
    · exact of_undisturbed (.of_blocks rfl rfl rfl)
    · exact of_undisturbed (.of_blocks rfl rfl rfl)
    · exact nothing
  · exact of_undisturbed (.of_blocks rfl rfl rfl)
  · unfold State.actRestart
    split_ifs
    · exact of_act (.restart s t cut)
    · exact of_undisturbed (.of_blocks rfl rfl rfl)
  · exact nothing

theorem runCommand (s : State) (t : PartTime) (f : LineFrame) (cut : Cut) : ActsOnce s (s.runCommand t f cut).state := by
  have nothing : ActsOnce s s := of_undisturbed (.refl s)
  unfold State.runCommand
  split
  · exact nothing
  · split_ifs
    · exact nothing
    · exact owner s t _ _ _ cut
    · exact nothing

theorem takeCommand (s : State) (t : PartTime) (f : LineFrame) (cut : Cut) : ActsOnce s (s.takeCommand t f cut) := by
  unfold State.takeCommand
  split_ifs
  · exact of_undisturbed (.report s _ _ _ _)
  · exact runCommand s t f cut
  · exact (runCommand s t f cut).andThen (.of_blocks rfl rfl rfl)

theorem consume (s : State) (t : PartTime) (f : LineFrame) (cut : Cut) : ActsOnce s (s.consume t f cut) := by
  unfold State.consume
  split_ifs
  · exact takeCommand s t f cut
  · exact of_undisturbed (.report s _ _ _ _)

theorem upstreamArrival (s : State) (t : PartTime) (f : LineFrame) (cut : Cut) : ActsOnce s (s.upstreamArrival t f cut) := by
  unfold State.upstreamArrival
  split_ifs
  · exact of_undisturbed (.refl s)
  · exact after (.enterDown s t f) (consume _ t f cut)
  · exact consume s t f cut
  · exact of_undisturbed (.enterDown s t f)

theorem upstreamBytes (s : State) (t : PartTime) (received : Bytes) : ActsOnce s (s.upstreamBytes t received) := by
  unfold State.upstreamBytes
  split_ifs
  · exact of_undisturbed (.refl s)
  · split
    · exact of_undisturbed (.refl s)
    · exact upstreamArrival s t _ _
    · exact of_undisturbed ((Undisturbed.report s _ _ _ _).trans (.setLcp _ _))

/-! ### Resets, reports from the heads, and each command of the table -/

theorem restartDue (s : State) (t : PartTime) (cut : Cut) : ActsOnce s (s.restartDue t cut) := by
  unfold State.restartDue
  split
  · exact (after (.setLcp s _) (of_act (.restart _ t cut))).andThen (.of_choice (.arbitrate _))
  · exact of_act (.restart s t cut)
  · exact of_undisturbed (.refl s)
  · exact of_undisturbed (.refl s)

theorem matchReport (s : State) (t : PartTime) (h : Fin 8) (r : ShotReport) : ActsOnce s (s.matchReport t h r) := by
  unfold State.matchReport
  split
  · rename_i awaited
    split_ifs
    · exact of_act (.closeFire s awaited r)
    · exact of_undisturbed (.report s _ _ _ _)
  · split_ifs <;> exact of_undisturbed (.report s _ _ _ _)
  · exact of_undisturbed (.report s _ _ _ _)

theorem headArrival (s : State) (t : PartTime) (f : HeadFrame) : ActsOnce s (s.headArrival t f) := by
  unfold State.headArrival State.shotFrame
  split_ifs
  · exact of_undisturbed (.refl s)
  · split
    · exact matchReport s t _ _
    · exact of_undisturbed (.malformedShot s t _ _)
  · exact of_undisturbed (.motionFrame s t _)
  · exact of_undisturbed (.report s _ _ _ _)

theorem headLinkBytes (s : State) (t : PartTime) (received : Bytes) : ActsOnce s (s.headLinkBytes t received) := by
  unfold State.headLinkBytes
  split_ifs
  · exact of_undisturbed (.refl s)
  · split
    · exact of_undisturbed (.refl s)
    · exact headArrival s t _
    · exact of_undisturbed ((Undisturbed.report s _ _ _ _).trans (.of_blocks rfl rfl rfl))

theorem commandArrives (s : State) (t : PartTime) (h : CommandHeader) (code : Byte) (args : Bytes) (cut : Cut) :
    ActsOnce s (s.commandArrives t h code args cut) :=
  acting t s fun a => upstreamArrival a t _ cut

theorem gateLineChange (s : State) (t : PartTime) (line : GateLine) (high : Bool) :
    ActsOnce s (if s.rstHigh then Machine.whole (s.setTime t) fun a => a.lineChange line t high
      else (s.setTime t).setFilter line { s.filter line with line := high }) := by
  split_ifs
  · exact after (.setTime s t) (whole _ fun a => of_undisturbed (.lineChange a line t high))
  · exact of_undisturbed ((Undisturbed.setTime s t).trans (.setFilter _ _ _))

theorem rstRise (s : State) (t : PartTime) : ActsOnce s (if s.rstHigh then s.setTime t else (s.setTime t).rstRise) := by
  split_ifs
  · exact of_undisturbed (.setTime s t)
  · exact of_undisturbed (.of_blocks rfl rfl rfl)

theorem exec {c : Instr} {s s' : State} (next : exec c s = .next s') : ActsOnce s s' := by
  cases c <;> obtain rfl := Host.Outcome.next.inj next
  case readTable t h args => exact commandArrives s t h 1 args _
  case writeTable t h args => exact commandArrives s t h 2 args _
  case start t h args => exact commandArrives s t h 3 args _
  case stop t h args => exact commandArrives s t h 4 args _
  case announce t h args => exact commandArrives s t h 5 args _
  case requestCal t h args => exact commandArrives s t h 6 args _
  case setAddress t h args => exact commandArrives s t h 7 args _
  case status t h args => exact commandArrives s t h 8 args _
  case setScratch t h args => exact commandArrives s t h 9 args _
  case clearCapture t h args => exact commandArrives s t h 10 args _
  case restart t h args cut => exact commandArrives s t h 11 args cut
  case restartTakesEffect t cut => exact acting t s fun a => restartDue a t cut
  case coldReset t cut => exact after (.setTime s t) (of_act (.coldReset _ cut))
  case rstRise t => exact rstRise s t
  case shotReport t node payload => exact acting t s fun a => headArrival a t _
  case motionReport t node payload => exact acting t s fun a => headArrival a t _
  case headLinkUnknownKind t node kind payload => exact acting t s fun a => headArrival a t _
  case headFrameCheck t received => exact acting t s fun a => headLinkBytes a t received
  case upstreamFrameArrival t f => exact acting t s fun a => upstreamArrival a t f _
  case downstreamFrameArrival t f => exact acting t s fun a => of_undisturbed (.downstreamArrival a t f)
  case lineFrameCheck t port received =>
    cases port with
    | upstream => exact acting t s fun a => upstreamBytes a t received
    | downstream => exact acting t s fun a => of_undisturbed (.downstreamBytes a t received)
  case upstreamTransmitterFree t => exact acting t s fun a => of_undisturbed (.upstreamFree a)
  case downstreamTransmitterFree t => exact acting t s fun a => of_undisturbed (.downstreamFree a)
  case headLinkTransmitDone t => exact acting t s fun a => of_undisturbed (.of_blocks rfl rfl rfl)
  case cycleEnd => exact actingTimed s fun a => of_act (.endCycle a)
  case firingPoint entry => exact actingTimed s fun a => of_act (.reachEntry a entry.val)
  case replyWindowExpiry head => exact actingTimed s fun a => of_act (.windowExpiry a head)
  case calibrationTimerExpiry => exact actingTimed s fun a => of_undisturbed (.timerExpiry a)
  case gateLineChange t line high => exact gateLineChange s t line high
  case gateFilterExpiry line => exact actingTimed s fun a => of_undisturbed (.filterExpiry a line)
  case lineFallsIdle t port => exact acting t s fun a => of_undisturbed (.fallsIdle a port)

/-- One step acts on the schedule and the heads' condition at most once. -/
theorem step {s s' : State} (next : step s = .next s') : ActsOnce s s' := by
  unfold Machine.step at next
  split at next
  · obtain rfl := Host.Outcome.next.inj next
    exact of_undisturbed (.setTime s _)
  · exact after (.setPending s _) (exec next)

end ActsOnce

/-- A law that undisturbed blocks keep, and every act, is kept by every step. -/
theorem law_of_acts {law : State → Prop} (undisturbed : ∀ a b, Undisturbed a b → law a → law b)
    (act : ∀ a b, ScheduleAct a b → law a → law b) {s s' : State} (held : law s) (next : step s = .next s') : law s' := by
  obtain ⟨a, b, before, acts, rest⟩ := ActsOnce.step next
  exact undisturbed b s' rest (act a b acts (undisturbed s a before held))

end Sys2Proof.Machine
end

section
/-! PROOFS. The law of the heads and the level (R45, R48 to R51, R57): what keeps one head's record lawful, what keeps the level at the
value of its inputs, and that every act on the schedule keeps both. -/

namespace Sys2Proof.Machine

/-! ### One head's record -/

theorem followMiss_eq_disabled (state : HeadState) (miss : Nat) : followMiss state miss = .disabled ↔ state = .disabled := by
  unfold followMiss
  cases state with
  | disabled => simp
  | active => by_cases e : miss = 7 <;> simp [e]
  | lost => by_cases e : miss = 0 <;> simp [e]

/-- A head that is ACTIVE after its state has followed the miss count has not reached 7 (R51). -/
theorem miss_of_followMiss_active {state : HeadState} {miss : Nat} (e : followMiss state miss = .active) : miss ≠ 7 := by
  rintro rfl
  cases state <;> simp [followMiss] at e

/-- A head that is LOST after its state has followed the miss count has not reached 0 (R51). -/
theorem miss_of_followMiss_lost {state : HeadState} {miss : Nat} (e : followMiss state miss = .lost) : miss ≠ 0 := by
  rintro rfl
  cases state <;> simp [followMiss] at e

/-- The record is lawful beside the entry in force: `State.HeadLawful`, said of a record and an entry. -/
def HeadRecord.LawfulIn (r : HeadRecord) (e : HeadEntry) : Prop :=
  (r.state = .disabled ↔ e.enabled = false) ∧ r.miss ≤ 7 ∧ (r.state = .active → r.miss < 7) ∧ (r.state = .lost → 0 < r.miss)
    ∧ 65536 - e.limit ≤ r.k ∧ r.k ≤ 65536 + e.limit

theorem State.headLawful_iff (s : State) (h : Fin 8) : s.HeadLawful h ↔ (s.head h).LawfulIn (s.headEntry h) :=
  Iff.rfl

/-- The record after a write of its entry (R49, R57): the state follows the enabled flag, and k is clamped into the limit. -/
def HeadRecord.written (r : HeadRecord) (e : HeadEntry) (health : Bool) : HeadRecord :=
  if e.enabled then
    if r.state = .disabled then ⟨.active, 0, 15, health, clampK e.limit r.k, r.cal⟩ else { r with k := clampK e.limit r.k }
  else { r with state := .disabled, k := clampK e.limit r.k }

theorem clampK_bounds (limit k : Nat) : 65536 - limit ≤ clampK limit k ∧ clampK limit k ≤ 65536 + limit := by
  unfold clampK
  omega

namespace HeadRecord.LawfulIn

variable {r : HeadRecord} {e : HeadEntry}

/-- The outcomes, the health and the calibration state are free. -/
theorem congr {r' : HeadRecord} (law : r.LawfulIn e) (state : r'.state = r.state) (miss : r'.miss = r.miss) (k : r'.k = r.k) :
    r'.LawfulIn e := by
  unfold LawfulIn
  rwa [state, miss, k]

/-- The state follows a new miss count (R50, R51). -/
theorem follow (law : r.LawfulIn e) {miss : Nat} (most : miss ≤ 7) :
    LawfulIn { r with miss := miss, state := followMiss r.state miss } e := by
  obtain ⟨off, -, -, -, low, high⟩ := law
  refine ⟨(followMiss_eq_disabled _ _).trans off, most, fun active => ?_, fun lost => ?_, low, high⟩
  · have := miss_of_followMiss_active active
    dsimp only
    omega
  · exact Nat.pos_of_ne_zero (miss_of_followMiss_lost lost)

/-- A correction within the limit replaces another (R57). -/
theorem corrected (law : r.LawfulIn e) {k : Nat} (low : 65536 - e.limit ≤ k) (high : k ≤ 65536 + e.limit) (cal : CalState) :
    LawfulIn { r with k := k, cal := cal } e := by
  obtain ⟨off, most, below, above, -, -⟩ := law
  exact ⟨off, most, below, above, low, high⟩

/-- A write of the entry makes the record lawful beside the new entry (R49, R57). -/
theorem written (law : r.LawfulIn e) (e' : HeadEntry) (health : Bool) : (r.written e' health).LawfulIn e' := by
  obtain ⟨-, most, below, above, -, -⟩ := law
  obtain ⟨low, high⟩ := clampK_bounds e'.limit r.k
  unfold HeadRecord.written
  split_ifs with on was
  · exact ⟨by simp [on], by simp, by simp, by simp, low, high⟩
  · exact ⟨by simp [on, was], most, below, above, low, high⟩
  · exact ⟨by simpa using on, most, by simp, by simp, low, high⟩

end HeadRecord.LawfulIn

/-- A calibration reply leaves a correction within the limit (R57, R63, R64). -/
theorem calibration_bounds (e : HeadEntry) {k : Nat} (low : 65536 - e.limit ≤ k) (high : k ≤ 65536 + e.limit) (energyLow : Bool)
    (echoes : List Echo) :
    65536 - e.limit ≤ (calibration e k energyLow echoes).1 ∧ (calibration e k energyLow echoes).1 ≤ 65536 + e.limit := by
  unfold calibration
  split_ifs
  · exact ⟨low, high⟩
  · split
    · exact clampK_bounds _ _
    · exact ⟨low, high⟩

/-! ### The level and its inputs (R45) -/

theorem State.levelOf_eq (s : State) : s.levelOf = if s.fsc.state = .halted then .config else s.runningLevel :=
  rfl

theorem State.headsAndLevel_iff (s : State) :
    s.HeadsAndLevel ↔ (∀ h, (s.head h).LawfulIn (s.headEntry h)) ∧ s.fsc.level = s.levelOf :=
  Iff.rfl

/-- The level depends on the schedule's being HALTED, the last round's result, the head table and the heads' states. -/
theorem State.levelOf_congr {s s' : State} (state : s'.fsc.state = .halted ↔ s.fsc.state = .halted)
    (short : s'.fsc.lastShort = s.fsc.lastShort) (table : s'.tst.heads = s.tst.heads) (heads : ∀ h, (s'.head h).state = (s.head h).state) :
    s'.levelOf = s.levelOf := by
  have enabled : ∀ h, s'.enabled h = s.enabled h := fun h => by simp only [State.enabled, State.headEntry, table]
  simp only [State.levelOf, state, short, enabled, heads]

/-- A record of the same state in the place of a head's leaves the level's inputs. -/
theorem State.setHead_levelOf (s : State) {h : Fin 8} {r : HeadRecord} (state : r.state = (s.head h).state) :
    (s.setHead h r).levelOf = s.levelOf := by
  refine State.levelOf_congr Iff.rfl rfl rfl fun j => ?_
  rw [State.setHead_head_ite]
  split_ifs with e
  · rw [e, state]
  · rfl

/-- The recomputation changes FSC in the level alone. -/
theorem State.recomputeLevel_fsc (s : State) : s.recomputeLevel.fsc = { s.fsc with level := s.levelOf } := by
  rcases s.recomputeLevel_eq with ⟨same, held⟩ | ⟨changed, -⟩
  · rw [same, ← held]
  · rw [changed]; rfl

theorem State.recomputeLevel_tst (s : State) : s.recomputeLevel.tst = s.tst :=
  (CompletionFrame.recomputeLevel s).tst

/-- When the level is right before a head's miss count is judged, it is right after (R45, R51). -/
theorem State.judgeMiss_level {s : State} {h : Fin 8} (right : s.fsc.level = s.levelOf) :
    (s.judgeMiss h).fsc.level = (s.judgeMiss h).levelOf := by
  unfold State.judgeMiss
  split
  · exact right
  all_goals
    split_ifs
    · exact State.recomputeLevel_level _
    · exact right

/-! ### A written head entry (R49, R57) -/

/-- The three rows of R49: the entry enables a DISABLED head, agrees with the head's state, or disables a head. -/
theorem State.headStateWritten_cases (s : State) (h : Fin 8) :
    (s.enabled h = true ∧ (s.head h).state = .disabled
      ∧ s.headStateWritten h = s.setHead h ⟨.active, 0, 15, s.healthOf 15, (s.head h).k, (s.head h).cal⟩)
    ∨ ((s.enabled h = true ↔ (s.head h).state ≠ .disabled) ∧ s.headStateWritten h = s)
    ∨ (s.enabled h = false ∧ (s.head h).state ≠ .disabled
      ∧ s.headStateWritten h = (s.setHead h { s.head h with state := .disabled }).releaseRequest h) := by
  unfold State.headStateWritten
  cases s.enabled h <;> cases (s.head h).state <;> simp

theorem State.headStateWritten_tst (s : State) (h : Fin 8) : (s.headStateWritten h).tst = s.tst := by
  rcases s.headStateWritten_cases h with ⟨-, -, e⟩ | ⟨-, e⟩ | ⟨-, -, e⟩ <;> rw [e]
  · rfl
  · exact (CompletionFrame.releaseRequest _ h).tst

/-- The head's record becomes the written one, and no other changes. -/
theorem State.clampHead_headStateWritten_head (s : State) (h j : Fin 8) :
    ((s.headStateWritten h).clampHead h).head j
      = if j = h then (s.head h).written (s.headEntry h) (s.healthOf 15) else s.head j := by
  have enabled : (s.headEntry h).enabled = s.enabled h := rfl
  rw [State.clampHead, State.setHead_head_ite, State.headEntry_of_tst (s.headStateWritten_tst h), HeadRecord.written, enabled]
  rcases s.headStateWritten_cases h with ⟨on, was, e⟩ | ⟨agree, e⟩ | ⟨off, was, e⟩ <;> rw [e]
  · by_cases n : j = h <;> simp [on, was, n, State.setHead_head_ite]
  · split_ifs <;> simp_all
  · by_cases n : j = h <;> simp [off, n, State.releaseRequest_head, State.setHead_head_ite]

/-- The entry that a write stores is read back, and no other entry changes (R185). -/
theorem State.store_headEntry (s : State) {index : Nat} (i : index ≤ 7) (c : Bytes) (j : Fin 8) :
    (s.setTst (s.tst.store 0 index c)).headEntry j = if j = headAt index then readHeadEntry c else s.headEntry j := by
  have place : headAt index = ⟨index, by omega⟩ := Fin.ext (Nat.mod_eq_of_lt (by omega))
  have stored : (s.setTst (s.tst.store 0 index c)).tst.heads = s.tst.heads.setIfInBounds index (some (readHeadEntry c)) := rfl
  simp only [State.headEntry, stored, place, Fin.ext_iff, Fin.getElem_fin, Vector.getElem_setIfInBounds, eq_comm (a := index)]
  split_ifs <;> rfl

/-! ### The acts keep the law -/

namespace State.HeadsAndLevel

variable {s : State}

/-- What keeps the heads, their table, the last round's result, the level and its being HALTED keeps the law. -/
theorem of_schedule {s' : State} (law : s.HeadsAndLevel) (hcu : s'.hcu = s.hcu) (table : s'.tst.heads = s.tst.heads)
    (level : s'.fsc.level = s.fsc.level) (short : s'.fsc.lastShort = s.fsc.lastShort)
    (state : s'.fsc.state = .halted ↔ s.fsc.state = .halted) : s'.HeadsAndLevel := by
  obtain ⟨heads, right⟩ := s.headsAndLevel_iff.1 law
  have same : ∀ h, s'.head h = s.head h := State.head_of_hcu hcu
  refine s'.headsAndLevel_iff.2 ⟨fun h => ?_, ?_⟩
  · rw [same, State.headEntry, table]
    exact heads h
  · rw [level, right, State.levelOf_congr state short table fun h => by rw [same]]

theorem undisturbed {s' : State} (law : s.HeadsAndLevel) (x : Undisturbed s s') : s'.HeadsAndLevel := by
  obtain ⟨heads, right⟩ := s.headsAndLevel_iff.1 law
  refine s'.headsAndLevel_iff.2 ⟨fun h => ?_, ?_⟩
  · rw [State.headEntry, x.heads]
    exact (heads h).congr (x.state h) (x.miss h) (x.k h)
  · rw [x.fsc, right, State.levelOf_congr (by rw [x.fsc]) (by rw [x.fsc]) x.heads x.state]

/-- A recomputation makes the level right, whatever it was (R45). -/
theorem recomputed (heads : ∀ h, (s.head h).LawfulIn (s.headEntry h)) : s.recomputeLevel.HeadsAndLevel := by
  refine (State.headsAndLevel_iff _).2 ⟨fun h => ?_, s.recomputeLevel_level⟩
  rw [State.head_of_hcu s.recomputeLevel_hcu, State.headEntry_of_tst s.recomputeLevel_tst]
  exact heads h

/-- A lawful record of the same state in the place of a head's (R53, R54, R57). -/
theorem setHead (law : s.HeadsAndLevel) {h : Fin 8} {r : HeadRecord} (state : r.state = (s.head h).state)
    (lawful : r.LawfulIn (s.headEntry h)) : (s.setHead h r).HeadsAndLevel := by
  obtain ⟨heads, right⟩ := s.headsAndLevel_iff.1 law
  refine (State.headsAndLevel_iff _).2 ⟨fun j => ?_, ?_⟩
  · rw [State.setHead_head_ite]
    split_ifs with e
    · exact e ▸ lawful
    · exact heads j
  · exact right.trans (s.setHead_levelOf state).symm

theorem recordOutcome (law : s.HeadsAndLevel) (h : Fin 8) (good : Bool) : (s.recordOutcome h good).HeadsAndLevel :=
  law.undisturbed (.of_resolution (.recordOutcome s h good))

/-- A head whose miss count changes, its state following (R50, R51). -/
theorem judged (law : s.HeadsAndLevel) (h : Fin 8) {miss : Nat} (most : miss ≤ 7) :
    ((s.setHead h { s.head h with miss := miss }).judgeMiss h).HeadsAndLevel := by
  obtain ⟨heads, right⟩ := s.headsAndLevel_iff.1 law
  refine (State.headsAndLevel_iff _).2 ⟨fun j => ?_, State.judgeMiss_level ?_⟩
  · rw [State.judgeMiss_head, State.headEntry_of_tst (CompletionFrame.judgeMiss _ h).tst]
    split_ifs with e
    · rw [e, State.setHead_head]
      exact (heads h).follow most
    · rw [State.setHead_head_other _ _ e]
      exact heads j
  · exact right.trans (s.setHead_levelOf (r := { s.head h with miss := miss }) rfl).symm

theorem replied (law : s.HeadsAndLevel) (h : Fin 8) : (s.replied h).HeadsAndLevel :=
  judged law h (by have := (law.1 h).2.1; omega)

theorem missed (law : s.HeadsAndLevel) (h : Fin 8) : (s.missed h).HeadsAndLevel :=
  judged law h (by unfold satSucc; omega)

theorem releaseRequest (law : s.HeadsAndLevel) (h : Fin 8) : (s.releaseRequest h).HeadsAndLevel := by
  refine law.undisturbed ?_
  unfold State.releaseRequest
  split_ifs
  · exact .of_blocks rfl rfl rfl
  · exact .refl s

/-- A calibration that completes with a correction within the limit (R57, R62). -/
theorem completeCalibration (law : s.HeadsAndLevel) (h : Fin 8) {k : Nat} (low : 65536 - (s.headEntry h).limit ≤ k)
    (high : k ≤ 65536 + (s.headEntry h).limit) (cal : CalState) : (s.completeCalibration h k cal).HeadsAndLevel := by
  have kept : ((s.setHead h { s.head h with k := k, cal := cal }).recordOutcome h (cal != .failed)).HeadsAndLevel :=
    recordOutcome (law.setHead (r := { s.head h with k := k, cal := cal }) rfl (((s.headsAndLevel_iff.1 law).1 h).corrected low high cal)) h _
  unfold State.completeCalibration
  dsimp only
  split_ifs
  · exact (kept.releaseRequest h).undisturbed (.of_blocks rfl rfl rfl)
  · exact kept.releaseRequest h

theorem recordMiss (law : s.HeadsAndLevel) (h : Fin 8) (kind : FireKind) : (s.recordMiss h kind).HeadsAndLevel := by
  cases kind with
  | measure => exact recordOutcome (law.missed h) h false
  | calibrate =>
    obtain ⟨-, -, -, -, low, high⟩ := (law.missed h).1 h
    exact (law.missed h).completeCalibration h low high .failed

theorem resolveRound (law : s.HeadsAndLevel) (round : Nat) : (s.resolveRound round).HeadsAndLevel := by
  unfold State.resolveRound
  split
  · exact law
  · split_ifs
    · exact recomputed law.1
    · exact law

theorem tallyResolved (law : s.HeadsAndLevel) (round : Nat) (isMiss : Bool) : (s.tallyResolved round isMiss).HeadsAndLevel :=
  resolveRound (s := s.modTally round _) (law.of_schedule rfl rfl rfl rfl Iff.rfl) round

theorem endRound (law : s.HeadsAndLevel) : s.endRound.HeadsAndLevel :=
  resolveRound (s := s.modTally s.fsc.round _) (law.of_schedule rfl rfl rfl rfl Iff.rfl) _

/-- START (R26, R28): a run and a halt recompute the level, a resumed run changes none of its inputs. -/
theorem startSchedule (law : s.HeadsAndLevel) (t : PartTime) : (s.startSchedule t).1.HeadsAndLevel := by
  have validated : (s.validateAndRun t).1.HeadsAndLevel := by
    unfold State.validateAndRun
    split
    · exact recomputed law.1
    · exact recomputed law.1
  unfold State.startSchedule
  split
  · exact validated
  · exact validated
  · exact law
  · rename_i stopping
    exact law.of_schedule rfl rfl rfl rfl (by simp [State.setFsc, stopping])

theorem stopSchedule (law : s.HeadsAndLevel) : s.stopSchedule.HeadsAndLevel := by
  unfold State.stopSchedule
  split
  · rename_i running
    exact law.of_schedule rfl rfl rfl rfl (by simp [State.setFsc, running])
  all_goals exact law

theorem headWritten (law : s.HeadsAndLevel) {index : Nat} (i : index ≤ 7) (c : Bytes) :
    ((s.setTst (s.tst.store 0 index c)).headWritten (headAt index)).HeadsAndLevel := by
  refine recomputed fun j => ?_
  have tables : ∀ a : State, ((a.headStateWritten (headAt index)).clampHead (headAt index)).tst = a.tst :=
    fun a => a.headStateWritten_tst (headAt index)
  rw [State.clampHead_headStateWritten_head, State.headEntry_of_tst (tables _), s.store_headEntry i, s.store_headEntry i, if_pos rfl]
  split_ifs with e
  · exact e ▸ ((s.headsAndLevel_iff.1 law).1 _).written _ _
  · exact law.1 j

/-- After either reset no head is LOST and the last round was full, so the level is 0 (R47, R66). -/
theorem of_reset (fsc : s.fsc = Fsc.reset) (heads : ∀ h, (s.head h).LawfulIn (s.headEntry h)) (found : ∀ h, (s.head h).state ≠ .lost) :
    s.HeadsAndLevel := by
  refine s.headsAndLevel_iff.2 ⟨heads, ?_⟩
  simp [State.levelOf, fsc, Fsc.reset, found]

theorem restart (law : s.HeadsAndLevel) (t : PartTime) (cut : Cut) : (s.restart t cut).HeadsAndLevel := by
  have record : ∀ h, (s.restart t cut).head h = s.headRestarted h := fun h => by
    simp [State.head, State.restart, State.hcuRestarted]
  refine of_reset rfl (fun h => ?_) fun h => ?_
  · obtain ⟨-, -, -, -, low, high⟩ := law.1 h
    rw [record]
    have state : (s.headRestarted h).state = if s.enabled h then .active else .disabled := rfl
    have enabled : ((s.restart t cut).headEntry h).enabled = s.enabled h := rfl
    refine ⟨?_, Nat.zero_le 7, fun _ => Nat.zero_lt_succ 6, ?_, low, high⟩
    all_goals
      rw [state]
      cases on : s.enabled h <;> simp [enabled, on]
  · rw [record, State.headRestarted]
    cases s.enabled h <;> simp

theorem coldReset (s : State) (cut : Cut) : (s.coldReset cut).HeadsAndLevel := by
  have record : ∀ h, (s.coldReset cut).head h = HeadRecord.reset := fun h => Vector.getElem_replicate _
  have entry : ∀ h, (s.coldReset cut).headEntry h = HeadEntry.unloaded := fun h => by
    simp [State.headEntry, State.coldReset, Tst.reset]
  refine of_reset rfl (fun h => ?_) fun h => ?_
  · rw [record, entry]
    simp [HeadRecord.LawfulIn, HeadRecord.reset, HeadEntry.unloaded]
  · rw [record]
    simp [HeadRecord.reset]

/-- A matching report (R38). -/
theorem closeFire (law : s.HeadsAndLevel) (h : Fin 8) (round : Nat) (r : ShotReport) : (s.closeFire h round r).HeadsAndLevel := by
  have resolved : (((s.setFire h .idle).replied h).tallyResolved round false).HeadsAndLevel :=
    tallyResolved (replied (s := s.setFire h .idle) (law.of_schedule rfl rfl rfl rfl Iff.rfl) h) round false
  unfold State.closeFire State.routeReply
  split
  · exact resolved.undisturbed (.shotArrival _ _)
  · obtain ⟨-, -, -, -, low, high⟩ := resolved.1 h
    obtain ⟨low', high'⟩ := calibration_bounds _ low high r.energyLow r.echoes
    exact resolved.completeCalibration h low' high' _

/-- A reply window that runs out (R39). -/
theorem windowExpiry (law : s.HeadsAndLevel) (h : Fin 8) : (s.windowExpiry h).HeadsAndLevel := by
  unfold State.windowExpiry
  split
  · rename_i seq kind expiry round _
    exact tallyResolved (recordMiss (s := (s.setTime expiry).setFire h (.expired seq kind))
      (law.of_schedule rfl rfl rfl rfl Iff.rfl) h kind) round true
  · exact law
  · exact law

theorem endCycle (law : s.HeadsAndLevel) : s.endCycle.HeadsAndLevel := by
  have timed : (s.setTime s.cycleEndTime).HeadsAndLevel := law.undisturbed (.setTime s _)
  unfold State.endCycle
  dsimp only
  split
  · unfold State.nextCycle
    dsimp only
    split_ifs
    · exact timed.endRound.of_schedule rfl rfl rfl rfl Iff.rfl
    · exact timed.of_schedule rfl rfl rfl rfl Iff.rfl
  · rename_i stopping
    exact endRound (timed.of_schedule rfl rfl rfl rfl (by simp [State.setFsc, stopping]))
  · exact law
  · exact law

theorem issueFire (law : s.HeadsAndLevel) (h : Fin 8) (kind : FireKind) (t : PartTime) (window : Nat) :
    (s.issueFire h kind t window).HeadsAndLevel :=
  law.of_schedule rfl rfl rfl rfl Iff.rfl

theorem skipFire (law : s.HeadsAndLevel) (h : Fin 8) (t : PartTime) (n : Nat) : (s.skipFire h t n).HeadsAndLevel :=
  undisturbed (s := s.modTally s.fsc.round _) (law.of_schedule rfl rfl rfl rfl Iff.rfl) (.report _ _ _ _ _)

theorem reachEntry (law : s.HeadsAndLevel) (n : Nat) : (s.reachEntry n).HeadsAndLevel := by
  unfold State.reachEntry State.firePoint
  split
  · exact law
  · exact law
  · dsimp only
    have reached (t : PartTime) : ((s.setTime t).setFsc { s.fsc with place := n + 1 }).HeadsAndLevel :=
      law.of_schedule rfl rfl rfl rfl Iff.rfl
    split_ifs
    · split
      · exact (reached _).skipFire _ _ _
      · exact (reached _).issueFire _ _ _ _
      · exact (reached _).issueFire _ _ _ _
    · exact reached _
    · exact law

/-- Every act keeps the law. -/
theorem act {s' : State} (x : ScheduleAct s s') (law : s.HeadsAndLevel) : s'.HeadsAndLevel := by
  cases x with
  | none => exact law
  | start t => exact law.startSchedule t
  | stop => exact law.stopSchedule
  | headWritten i c => exact law.headWritten i c
  | restart t cut => exact law.restart t cut
  | coldReset cut => exact coldReset s cut
  | closeFire awaited r => exact law.closeFire _ _ r
  | windowExpiry h => exact law.windowExpiry h
  | endCycle => exact law.endCycle
  | reachEntry n => exact law.reachEntry n

end State.HeadsAndLevel

/-- Settles O58: undisturbed blocks keep the law, and so does every act on the schedule or a head's condition. -/
theorem stepKeepsHeadsAndLevel : Obligations.StepKeepsHeadsAndLevel :=
  fun _ _ => law_of_acts (fun _ _ x law => law.undisturbed x) fun _ _ x law => law.act x

end Sys2Proof.Machine
end

section
/-! PROOFS. The books of the rounds (R43, R44): what begins, changes, ends and closes a tally, and that every act on the schedule keeps the
account of issued, resolved and outstanding fires. -/

namespace Sys2Proof.Machine

/-! ### The fires outstanding in a round -/

/-- Two tests that agree but for one element of a list without repetitions count alike but for that element. -/
theorem countP_change {α : Type} {l : List α} (distinct : l.Nodup) {a : α} (mem : a ∈ l) {p q : α → Bool}
    (same : ∀ b, b ≠ a → q b = p b) : l.countP q + (p a).toNat = l.countP p + (q a).toNat := by
  obtain ⟨before, rest, rfl⟩ := List.append_of_mem mem
  have apart : a ∉ before ∧ a ∉ rest := by
    rw [List.nodup_append] at distinct
    obtain ⟨-, second, disjoint⟩ := distinct
    exact ⟨fun m => disjoint a m a List.mem_cons_self rfl, (List.nodup_cons.1 second).1⟩
  have off (side : List α) (n : a ∉ side) : side.countP q = side.countP p :=
    List.countP_congr fun b m => by rw [same b fun e => n (e ▸ m)]
  rw [List.countP_append, List.countP_append, List.countP_cons, List.countP_cons, off before apart.1, off rest apart.2]
  cases p a <;> cases q a <;> simp <;> omega

/-- A replaced fire record moves a round's count of outstanding fires by what it and the record before count for. -/
theorem State.outstandingIn_setFire (s : State) (h : Fin 8) (r : FireRecord) (n : Nat) :
    (s.setFire h r).outstandingIn n + ((s.fire h).inRound n).toNat = s.outstandingIn n + (r.inRound n).toNat := by
  have change := countP_change (l := allHeads) (by decide) (a := h) (by revert h; decide)
    (p := fun j => (s.fire j).inRound n) (q := fun j => ((s.setFire h r).fire j).inRound n)
    fun j off => by rw [State.setFire_fire_other s r off]
  simpa [State.outstandingIn] using change

theorem State.fire_congr {s s' : State} (records : s'.fsc.records = s.fsc.records) (h : Fin 8) : s'.fire h = s.fire h := by
  simp only [State.fire, records]

theorem State.outstandingIn_congr {s s' : State} (records : s'.fsc.records = s.fsc.records) (n : Nat) :
    s'.outstandingIn n = s.outstandingIn n := by
  simp only [State.outstandingIn, State.fire_congr records]

/-- A tally with one fire more resolved, by a reply or as a miss (R43). -/
def Tally.resolve (isMiss : Bool) (x : Tally) : Tally :=
  { x with resolved := x.resolved + 1, misses := if isMiss then x.misses + 1 else x.misses }

theorem State.tallyResolved_eq (s : State) (round : Nat) (isMiss : Bool) :
    s.tallyResolved round isMiss = (s.modTally round (Tally.resolve isMiss)).resolveRound round :=
  rfl

/-- No fire of a round is outstanding exactly when no head's record says so. -/
theorem State.outstandingIn_eq_zero {s : State} {n : Nat} : s.outstandingIn n = 0 ↔ ∀ h, (s.fire h).inRound n = false := by
  have mem : ∀ h : Fin 8, h ∈ allHeads := by decide
  simp [State.outstandingIn, List.countP_eq_zero, mem]

/-! ### The books -/

/-- The account of the tallies while one round is in progress and one may be due to close: `State.TalliesAccount` with the round in
progress named, and with the ended round that is due allowed to have no fire outstanding. -/
structure State.Books (s : State) (inProgress due : Option Nat) : Prop where
  distinct : (s.fsc.tallies.map Tally.round).Nodup
  past     : ∀ x ∈ s.fsc.tallies, x.round ≤ s.fsc.round
  account  : ∀ x ∈ s.fsc.tallies, x.issued = x.resolved + s.outstandingIn x.round
  held     : ∀ x ∈ s.fsc.tallies, x.ended = true → due ≠ some x.round → 0 < s.outstandingIn x.round
  running  : ∀ x ∈ s.fsc.tallies, x.ended = false ↔ inProgress = some x.round
  begun    : ∀ n, inProgress = some n → ∃ x ∈ s.fsc.tallies, x.round = n
  tallied  : ∀ h n, (s.fire h).inRound n = true → ∃ x ∈ s.fsc.tallies, x.round = n

/-- The round in progress, while cycles run. -/
def State.roundInProgress (s : State) : Option Nat :=
  if s.cyclesRun then some s.fsc.round else none

theorem State.talliesAccount_iff (s : State) : s.TalliesAccount ↔ s.Books s.roundInProgress none := by
  unfold State.TalliesAccount State.roundInProgress
  constructor
  · rintro ⟨distinct, past, account, held, running, begun, tallied⟩
    refine ⟨distinct, past, account, fun x m e _ => held x m e, fun x m => (running x m).trans ?_, fun n => ?_, tallied⟩
    · cases s.cyclesRun <;> simp [eq_comm]
    · cases run : s.cyclesRun with
      | false => simp
      | true => rintro ⟨⟩; exact begun run
  · rintro ⟨distinct, past, account, held, running, begun, tallied⟩
    refine ⟨distinct, past, account, fun x m e => held x m e nofun, fun x m => (running x m).trans ?_, fun run => ?_, tallied⟩
    · cases s.cyclesRun <;> simp [eq_comm]
    · exact begun _ (if_pos run)

namespace State.Books

variable {s : State} {inProgress due : Option Nat}

/-- The books stand in the records, the tallies and the serial number of the newest round. -/
theorem congr {s' : State} (b : s.Books inProgress due) (records : s'.fsc.records = s.fsc.records)
    (tallies : s'.fsc.tallies = s.fsc.tallies) (round : s'.fsc.round = s.fsc.round) : s'.Books inProgress due := by
  obtain ⟨distinct, past, account, held, running, begun, tallied⟩ := b
  constructor <;> simp only [tallies, round, State.outstandingIn_congr records, State.fire_congr records] <;> assumption

/-- The tally of a round is the only one. -/
theorem unique (b : s.Books inProgress due) {x y : Tally} (hx : x ∈ s.fsc.tallies) (hy : y ∈ s.fsc.tallies) (e : x.round = y.round) :
    x = y :=
  List.inj_on_of_nodup_map b.distinct hx hy e

/-- A changed tally of round `n`: the books stand, but that the round may now be due to close, when its account and its mark are right. -/
theorem changed {s' : State} {inProgress' : Option Nat} {n : Nat} {f : Tally → Tally} (b : s.Books inProgress none)
    (round : s'.fsc.round = s.fsc.round) (tallies : s'.fsc.tallies = (s.modTally n f).fsc.tallies)
    (same : ∀ x, (f x).round = x.round)
    (others : ∀ m, m ≠ n → s'.outstandingIn m = s.outstandingIn m)
    (account : ∀ x, x.issued = x.resolved + s.outstandingIn n → (f x).issued = (f x).resolved + s'.outstandingIn n)
    (running : ∀ x ∈ s.fsc.tallies, (if x.round = n then f x else x).ended = false ↔ inProgress' = some x.round)
    (begun : ∀ m, inProgress' = some m → ∃ x ∈ s.fsc.tallies, x.round = m)
    (tallied : ∀ h m, (s'.fire h).inRound m = true → ∃ x ∈ s.fsc.tallies, x.round = m) :
    s'.Books inProgress' (some n) := by
  have mapped : s'.fsc.tallies = s.fsc.tallies.map fun x => if x.round = n then f x else x := tallies
  have kept (x : Tally) : (if x.round = n then f x else x).round = x.round := by
    split_ifs
    · exact same x
    · rfl
  have found {m : Nat} : (∃ x ∈ s.fsc.tallies, x.round = m) → ∃ y ∈ s'.fsc.tallies, y.round = m := by
    rintro ⟨x, hx, e⟩
    exact ⟨_, mapped ▸ List.mem_map_of_mem hx, (kept x).trans e⟩
  have each {claim : Tally → Prop} (from_ : ∀ x ∈ s.fsc.tallies, claim (if x.round = n then f x else x)) :
      ∀ y ∈ s'.fsc.tallies, claim y := by
    rw [mapped, List.forall_mem_map]
    exact from_
  refine ⟨?_, each fun x hx => ?_, each fun x hx => ?_, each fun x hx => ?_, each fun x hx => ?_, fun m e => found (begun m e),
    fun h m e => found (tallied h m e)⟩
  · rw [mapped, List.map_map, show Tally.round ∘ _ = Tally.round from funext kept]
    exact b.distinct
  · rw [kept, round]
    exact b.past x hx
  · split_ifs with e
    · rw [same, e]
      exact account x (e ▸ b.account x hx)
    · rw [others _ e]
      exact b.account x hx
  · split_ifs with e
    · exact fun _ off => absurd (by rw [same, e]) off
    · exact fun ended _ => (others _ e).symm ▸ b.held x hx ended nofun
  · rw [kept]
    exact running x hx

/-- A round that is in progress is not due to close. -/
theorem undue {n : Nat} (b : s.Books (some n) (some n)) : s.Books (some n) none := by
  refine { b with held := fun x hx ended _ => b.held x hx ended fun e => ?_ }
  have := (b.running x hx).2 e
  simp [ended] at this

/-- A round due to close is closed when it has ended with every fire resolved; its books are then right (R44). -/
theorem resolveRound {n : Nat} (b : s.Books inProgress (some n)) : (s.resolveRound n).Books inProgress none := by
  unfold State.resolveRound
  split
  · rename_i absent
    refine { b with held := fun x hx ended _ => b.held x hx ended fun e => ?_ }
    exact absurd (Option.some.inj e).symm (by simpa using List.find?_eq_none.1 absent x hx)
  · rename_i x found
    have mem : x ∈ s.fsc.tallies := List.mem_of_find?_eq_some found
    have at_ : x.round = n := by simpa using List.find?_some found
    split_ifs with closes
    · have off : inProgress ≠ some n := fun e => by
        have := (b.running x mem).2 (at_.symm ▸ e)
        simp [closes.1] at this
      have nothing : s.outstandingIn n = 0 := by have := b.account x mem; rw [at_] at this; omega
      refine congr (s := s.setFsc { s.fsc with tallies := s.fsc.tallies.filter fun y => y.round != n }) ?_ ?_ ?_ ?_
      · have sub {y : Tally} (hy : y ∈ s.fsc.tallies.filter fun y => y.round != n) : y ∈ s.fsc.tallies ∧ y.round ≠ n := by
          simpa using hy
        have stays {m : Nat} (ne : m ≠ n) : (∃ y ∈ s.fsc.tallies, y.round = m) →
            ∃ y ∈ s.fsc.tallies.filter (fun y => y.round != n), y.round = m := by
          rintro ⟨y, hy, rfl⟩
          exact ⟨y, by simpa [hy] using ne, rfl⟩
        refine ⟨b.distinct.sublist (List.filter_sublist.map _), fun y hy => b.past y (sub hy).1, fun y hy => b.account y (sub hy).1,
          fun y hy ended _ => b.held y (sub hy).1 ended fun e => (sub hy).2 (Option.some.inj e).symm, fun y hy => b.running y (sub hy).1,
          fun m e => stays (fun q => off (q ▸ e)) (b.begun m e), fun h m e => stays (fun q => ?_) (b.tallied h m e)⟩
        have none_ := State.outstandingIn_eq_zero.1 nothing h
        exact Bool.false_ne_true (none_.symm.trans (q ▸ e))
      all_goals rw [State.recomputeLevel_fsc]; rfl
    · refine { b with held := fun y hy ended _ => ?_ }
      by_cases e : y.round = n
      · have same : y = x := b.unique hy mem (e.trans at_.symm)
        have := b.account y hy
        have open_ : y.resolved ≠ y.issued := fun q => closes ⟨same ▸ ended, same ▸ q⟩
        omega
      · exact b.held y hy ended fun q => e (Option.some.inj q).symm

/-- The round in progress ends (R44). -/
theorem endRound (b : s.Books (some s.fsc.round) none) : s.endRound.Books none none := by
  refine resolveRound (changed b rfl rfl (fun _ => rfl) (fun _ _ => rfl) (fun _ e => e) (fun x hx => ?_) nofun b.tallied)
  have := b.running x hx
  split_ifs with e
  · simp
  · have ended : x.ended = true := by
      cases mark : x.ended with
      | true => rfl
      | false => exact absurd (Option.some.inj (this.1 mark)).symm e
    simp [ended]

/-- A new round begins (R43). -/
theorem beginRound (b : s.Books none none) : s.beginRound.Books (some (s.fsc.round + 1)) none := by
  have older {x : Tally} (hx : x ∈ s.fsc.tallies) : x.round ≠ s.fsc.round + 1 := by
    have := b.past x hx
    omega
  have nothing : s.outstandingIn (s.fsc.round + 1) = 0 := State.outstandingIn_eq_zero.2 fun h => by
    cases e : (s.fire h).inRound (s.fsc.round + 1) with
    | false => rfl
    | true =>
      obtain ⟨x, hx, at_⟩ := b.tallied h _ e
      exact absurd at_ (older hx)
  have all {claim : Tally → Prop} (old : ∀ x ∈ s.fsc.tallies, claim x) (new : claim ⟨s.fsc.round + 1, 0, 0, 0, 0, false⟩) :
      ∀ x ∈ s.beginRound.fsc.tallies, claim x := by
    intro x hx
    rcases List.mem_append.1 (show x ∈ s.fsc.tallies ++ [_] from hx) with hx | hx
    · exact old x hx
    · exact List.mem_singleton.1 hx ▸ new
  refine ⟨?_, all (fun x hx => (b.past x hx).trans (Nat.le_succ _)) le_rfl, all b.account ?_,
    all (fun x hx e _ => b.held x hx e nofun) nofun,
    all (fun x hx => ?_) ?_, fun n e => ?_, fun h n e => ?_⟩
  · change (List.map Tally.round (s.fsc.tallies ++ [_])).Nodup
    rw [List.map_append, List.nodup_append]
    refine ⟨b.distinct, List.nodup_singleton _, ?_⟩
    simp only [List.mem_map, List.map_cons, List.map_nil, List.mem_singleton]
    rintro _ ⟨x, hx, rfl⟩ _ rfl
    exact older hx
  · exact (Nat.zero_add (s.outstandingIn _)).trans nothing |>.symm
  · rw [b.running x hx]
    simp [(older hx).symm]
  · simp
  · exact ⟨_, List.mem_append_right _ (List.mem_singleton_self _), Option.some.inj e⟩
  · obtain ⟨x, hx, at_⟩ := b.tallied h n e
    exact ⟨x, List.mem_append_left _ hx, at_⟩

/-- A skipped point counts in the round's tally, which the books do not read (R33, R43). -/
theorem skipped (b : s.Books (some s.fsc.round) none) :
    (s.modTally s.fsc.round fun x => { x with skips := x.skips + 1 }).Books (some s.fsc.round) none :=
  undue <| changed b rfl rfl (fun _ => rfl) (fun _ _ => rfl) (fun _ e => e)
    (fun x hx => by rw [← b.running x hx]; split_ifs <;> rfl) b.begun b.tallied

/-- A head whose record counts for no round. -/
theorem outstandingIn_setFire_other (s : State) {h : Fin 8} {r : FireRecord} {m : Nat} (old : (s.fire h).inRound m = false)
    (new : r.inRound m = false) : (s.setFire h r).outstandingIn m = s.outstandingIn m := by
  simpa [old, new] using s.outstandingIn_setFire h r m

theorem fire_setFire (s : State) (h j : Fin 8) (r : FireRecord) : (s.setFire h r).fire j = if j = h then r else s.fire j := by
  split_ifs with e
  · rw [e, State.setFire_fire]
  · exact State.setFire_fire_other s r e

/-- A fire issued for a head with none outstanding (R35, R43). -/
theorem issued (b : s.Books (some s.fsc.round) none) {h : Fin 8} (free : ∀ n, (s.fire h).inRound n = false) (seq : Byte) (kind : FireKind)
    (expiry : PartTime) :
    ((s.setFire h (.outstanding seq kind expiry s.fsc.round)).modTally s.fsc.round
      fun x => { x with issued := x.issued + 1 }).Books (some s.fsc.round) none := by
  have counts (m : Nat) : (FireRecord.outstanding seq kind expiry s.fsc.round).inRound m = decide (s.fsc.round = m) := rfl
  have one := s.outstandingIn_setFire h (.outstanding seq kind expiry s.fsc.round) s.fsc.round
  simp only [free, counts, Bool.toNat_false, decide_true, Bool.toNat_true] at one
  refine undue (changed b rfl rfl (fun _ => rfl) (fun m off => ?_) (fun x e => ?_)
    (fun x hx => by rw [← b.running x hx]; split_ifs <;> rfl) b.begun fun j m e => ?_)
  · exact outstandingIn_setFire_other s (free m) (by simpa [counts] using Ne.symm off)
  · change x.issued + 1 = x.resolved + (s.setFire h _).outstandingIn _
    omega
  · change ((s.setFire h _).fire j).inRound m = true at e
    rw [fire_setFire] at e
    split_ifs at e
    · exact b.begun m (congrArg some (by simpa [counts] using e))
    · exact b.tallied j m e

/-- An outstanding fire that is closed or has expired, counted as resolved in its round (R38, R39, R43); `s'` is the state in which it is
counted, whose records, tallies and serial number are those that the closing left. -/
theorem resolved {s' : State} (b : s.Books inProgress none) {h : Fin 8} {seq : Byte} {kind : FireKind} {expiry : PartTime} {round : Nat}
    (awaited : s.fire h = .outstanding seq kind expiry round) {r : FireRecord} (closed : ∀ n, r.inRound n = false)
    (records : s'.fsc.records = (s.setFire h r).fsc.records) (tallies : s'.fsc.tallies = s.fsc.tallies)
    (serial : s'.fsc.round = s.fsc.round) (isMiss : Bool) : (s'.tallyResolved round isMiss).Books inProgress none := by
  have counts (m : Nat) : (s.fire h).inRound m = decide (round = m) := by rw [awaited]; rfl
  have one := s.outstandingIn_setFire h r round
  simp only [closed, counts, Bool.toNat_false, decide_true, Bool.toNat_true] at one
  have records' : (s'.modTally round (Tally.resolve isMiss)).fsc.records = (s.setFire h r).fsc.records := records
  rw [State.tallyResolved_eq]
  refine resolveRound (changed (f := Tally.resolve isMiss) b serial (by simp only [State.modTally, State.setFsc, tallies]) (fun _ => rfl)
    (fun m off => ?_) (fun x e => ?_) (fun x hx => by rw [← b.running x hx]; split_ifs <;> rfl) b.begun fun j m e => ?_)
  · rw [State.outstandingIn_congr records']
    exact outstandingIn_setFire_other s (by simpa [counts] using Ne.symm off) (closed m)
  · rw [State.outstandingIn_congr records']
    change x.issued = x.resolved + 1 + (s.setFire h r).outstandingIn round
    omega
  · rw [State.fire_congr records', fire_setFire] at e
    split_ifs at e
    · simp [closed] at e
    · exact b.tallied j m e

/-- No fire outstanding and no tally: the books after either reset (R47). -/
theorem of_reset (fsc : s.fsc = Fsc.reset) : s.Books none none := by
  have idle : ∀ h, s.fire h = .idle := fun h => by simp [State.fire, fsc, Fsc.reset]
  constructor <;> simp [fsc, Fsc.reset, idle, FireRecord.inRound]

end State.Books

/-! ### What the heads' operations leave of FSC -/

theorem State.judgeMiss_fsc (s : State) (h : Fin 8) : (s.judgeMiss h).fsc = { s.fsc with level := (s.judgeMiss h).fsc.level } := by
  unfold State.judgeMiss
  split
  · rfl
  all_goals
    split_ifs
    · rw [State.recomputeLevel_fsc]; rfl
    · rfl

theorem State.completeCalibration_fsc (s : State) (h : Fin 8) (k : Nat) (cal : CalState) : (s.completeCalibration h k cal).fsc = s.fsc := by
  unfold State.completeCalibration State.releaseRequest
  dsimp only
  split_ifs <;> rfl

/-- A miss leaves FSC but for the level (R39, R45). -/
theorem State.recordMiss_fsc (s : State) (h : Fin 8) (kind : FireKind) :
    (s.recordMiss h kind).fsc = { s.fsc with level := (s.missed h).fsc.level } := by
  have missed : (s.missed h).fsc = { s.fsc with level := (s.missed h).fsc.level } := State.judgeMiss_fsc _ h
  cases kind with
  | measure => exact missed
  | calibrate => exact (State.completeCalibration_fsc _ h _ _).trans missed

theorem State.recordMiss_level (s : State) (h : Fin 8) (kind : FireKind) :
    (s.recordMiss h kind).fsc = { s.fsc with level := (s.recordMiss h kind).fsc.level } := by
  rw [State.recordMiss_fsc]

/-- A reply leaves FSC but for the level (R38, R45). -/
theorem State.replied_fsc (s : State) (h : Fin 8) : (s.replied h).fsc = { s.fsc with level := (s.replied h).fsc.level } :=
  State.judgeMiss_fsc _ h

theorem State.routeReply_fsc (s : State) (h : Fin 8) (r : ShotReport) : (s.routeReply h r).fsc = s.fsc := by
  unfold State.routeReply
  split
  · exact (Undisturbed.shotArrival s _).fsc
  · exact State.completeCalibration_fsc s h _ _

/-! ### The acts keep the books -/

namespace State.TalliesAccount

variable {s : State}

/-- What keeps the records, the tallies, the newest round and whether cycles run keeps the books. -/
theorem of_schedule {s' : State} (law : s.TalliesAccount) (records : s'.fsc.records = s.fsc.records)
    (tallies : s'.fsc.tallies = s.fsc.tallies) (round : s'.fsc.round = s.fsc.round) (run : s'.cyclesRun = s.cyclesRun) :
    s'.TalliesAccount := by
  rw [State.talliesAccount_iff, State.roundInProgress, run, round]
  exact (s.talliesAccount_iff.1 law).congr records tallies round

theorem of_fsc {s' : State} (law : s.TalliesAccount) (fsc : s'.fsc = s.fsc) : s'.TalliesAccount :=
  law.of_schedule (by rw [fsc]) (by rw [fsc]) (by rw [fsc]) (by simp only [State.cyclesRun, fsc])

/-- While no cycle runs, the law is that of books with no round in progress. -/
theorem books_of_idle (law : s.TalliesAccount) (idle : s.cyclesRun = false) : s.Books none none := by
  simpa [State.roundInProgress, idle] using s.talliesAccount_iff.1 law

theorem books_of_running (law : s.TalliesAccount) (run : s.cyclesRun = true) : s.Books (some s.fsc.round) none := by
  simpa [State.roundInProgress, run] using s.talliesAccount_iff.1 law

theorem of_idle (b : s.Books none none) (idle : s.cyclesRun = false) : s.TalliesAccount := by
  simpa [State.talliesAccount_iff, State.roundInProgress, idle] using b

theorem of_running (b : s.Books (some s.fsc.round) none) (run : s.cyclesRun = true) : s.TalliesAccount := by
  simpa [State.talliesAccount_iff, State.roundInProgress, run] using b

/-- START (R26, R28). -/
theorem startSchedule (law : s.TalliesAccount) (t : PartTime) : (s.startSchedule t).1.TalliesAccount := by
  have validated (idle : s.cyclesRun = false) : (s.validateAndRun t).1.TalliesAccount := by
    have books := law.books_of_idle idle
    unfold State.validateAndRun
    split
    · refine of_idle (books.congr ?_ ?_ ?_) ?_
      all_goals simp only [State.halt, State.cyclesRun, State.recomputeLevel_fsc]; rfl
    · have run : (s.beginRun t).fsc = { (s.beginRun t).fsc with
          state := .running, records := s.fsc.records, tallies := s.beginRound.fsc.tallies, round := s.fsc.round + 1 } := by
        rw [State.beginRun, State.recomputeLevel_fsc]; rfl
      refine of_running ?_ ?_
      · change (s.beginRun t).Books (some (s.beginRun t).fsc.round) none
        rw [run]
        exact (State.Books.beginRound books).congr (by rw [run]; rfl) (by rw [run]) (by rw [run]; rfl)
      · change (s.beginRun t).cyclesRun = true
        rw [State.cyclesRun, run]; rfl
  unfold State.startSchedule
  split <;> rename_i state
  · exact validated (by simp [State.cyclesRun, state])
  · exact validated (by simp [State.cyclesRun, state])
  · exact law
  · exact law.of_schedule rfl rfl rfl (by simp [State.cyclesRun, State.setFsc, state])

/-- STOP (R29). -/
theorem stopSchedule (law : s.TalliesAccount) : s.stopSchedule.TalliesAccount := by
  unfold State.stopSchedule
  split <;> rename_i state
  · exact law.of_schedule rfl rfl rfl (by simp [State.cyclesRun, State.setFsc, state])
  all_goals exact law

theorem headWritten (law : s.TalliesAccount) (h : Fin 8) : (s.headWritten h).TalliesAccount := by
  have kept : ((s.headStateWritten h).clampHead h).fsc = s.fsc := by
    change (s.headStateWritten h).fsc = s.fsc
    rcases s.headStateWritten_cases h with ⟨-, -, e⟩ | ⟨-, e⟩ | ⟨-, -, e⟩ <;> rw [e]
    · rfl
    · unfold State.releaseRequest
      split_ifs <;> rfl
  have level : (s.headWritten h).fsc = { s.fsc with level := (s.headWritten h).fsc.level } := by
    rw [State.headWritten, State.recomputeLevel_fsc, kept]
  exact law.of_schedule (by rw [level]) (by rw [level]) (by rw [level]) (by simp only [State.cyclesRun]; rw [level])

theorem of_reset (fsc : s.fsc = Fsc.reset) : s.TalliesAccount :=
  of_idle (State.Books.of_reset fsc) (by rw [State.cyclesRun, fsc]; rfl)

/-- A fire that is resolved, whatever its closing has done to the heads and the level (R38, R39). -/
theorem resolved {s' : State} (law : s.TalliesAccount) {h : Fin 8} {seq : Byte} {kind : FireKind} {expiry : PartTime} {round : Nat}
    (awaited : s.fire h = .outstanding seq kind expiry round) {r : FireRecord} (closed : ∀ n, r.inRound n = false)
    (fsc : s'.fsc = { (s.setFire h r).fsc with level := s'.fsc.level }) (isMiss : Bool) :
    (s'.tallyResolved round isMiss).TalliesAccount := by
  have frame := (TallyFrame.resolveRound (s'.modTally round (Tally.resolve isMiss)) round)
  have serial : (s'.tallyResolved round isMiss).fsc.round = s.fsc.round :=
    frame.round.trans (by rw [TallyFrame.modTally _ _ _ |>.round, fsc]; rfl)
  have state : (s'.tallyResolved round isMiss).fsc.state = s.fsc.state :=
    frame.state.trans (by rw [TallyFrame.modTally _ _ _ |>.state, fsc]; rfl)
  rw [State.talliesAccount_iff, State.roundInProgress, State.cyclesRun, serial, state]
  exact State.Books.resolved (s.talliesAccount_iff.1 law) awaited closed (by rw [fsc]) (by rw [fsc]; rfl) (by rw [fsc]; rfl) isMiss

theorem closeFire (law : s.TalliesAccount) {h : Fin 8} {seq : Byte} {kind : FireKind} {expiry : PartTime} {round : Nat}
    (awaited : s.fire h = .outstanding seq kind expiry round) (r : ShotReport) : (s.closeFire h round r).TalliesAccount :=
  of_fsc (law.resolved awaited (fun _ => rfl) ((s.setFire h .idle).replied_fsc h) false) (State.routeReply_fsc _ h r)

theorem windowExpiry (law : s.TalliesAccount) (h : Fin 8) : (s.windowExpiry h).TalliesAccount := by
  unfold State.windowExpiry
  split
  · rename_i seq kind expiry round awaited
    have timed : (s.setTime expiry).TalliesAccount := law.of_fsc rfl
    exact timed.resolved awaited (r := .expired seq kind) (fun _ => rfl) (State.recordMiss_level _ h kind) true
  · exact law
  · exact law

/-- CYCLE_END (R32). -/
theorem endCycle (law : s.TalliesAccount) : s.endCycle.TalliesAccount := by
  have frame (a : State) : TallyFrame (a.modTally a.fsc.round fun x => { x with ended := true }) a.endRound := .resolveRound _ _
  unfold State.endCycle
  dsimp only
  split <;> rename_i state
  · have books : (s.setTime s.cycleEndTime).Books (some s.fsc.round) none :=
      (law.books_of_running (by simp [State.cyclesRun, state])).congr rfl rfl rfl
    unfold State.nextCycle
    dsimp only
    split_ifs
    · refine of_running ((State.Books.beginRound (State.Books.endRound books)).congr rfl rfl rfl) ?_
      change (State.endRound _).cyclesRun = true
      rw [State.cyclesRun, (frame _).state]
      simp [State.modTally, State.setFsc, state]
    · exact law.of_schedule rfl rfl rfl rfl
  · have books : ((s.setTime s.cycleEndTime).setFsc { s.fsc with state := .stopped }).Books (some s.fsc.round) none :=
      (law.books_of_running (by simp [State.cyclesRun, state])).congr rfl rfl rfl
    refine of_idle (State.Books.endRound books) ?_
    rw [State.cyclesRun, (frame _).state]
    rfl
  · exact law
  · exact law

theorem skipFire (law : s.TalliesAccount) (run : s.cyclesRun = true) (h : Fin 8) (t : PartTime) (n : Nat) :
    (s.skipFire h t n).TalliesAccount :=
  of_fsc (of_running (s := s.modTally _ _) (law.books_of_running run).skipped run) (Undisturbed.report _ _ _ _ _).fsc

theorem issueFire (law : s.TalliesAccount) (run : s.cyclesRun = true) {h : Fin 8} (free : ∀ n, (s.fire h).inRound n = false)
    (kind : FireKind) (t : PartTime) (window : Nat) : (s.issueFire h kind t window).TalliesAccount :=
  of_running (((law.books_of_running run).issued free _ _ _).congr rfl rfl rfl) run

/-- FIRING_POINT (R24, R33, R35). -/
theorem reachEntry (law : s.TalliesAccount) (n : Nat) : (s.reachEntry n).TalliesAccount := by
  unfold State.reachEntry
  split
  · exact law
  · exact law
  · dsimp only
    have reached (t : PartTime) : ((s.setTime t).setFsc { s.fsc with place := n + 1 }).TalliesAccount :=
      law.of_schedule rfl rfl rfl rfl
    split_ifs with ahead selected
    · have run : s.cyclesRun = true := by
        simp only [State.pointAhead, Bool.and_eq_true] at ahead
        exact ahead.1.1
      unfold State.firePoint
      split <;> rename_i record
      · exact (reached _).skipFire run _ _ _
      all_goals exact (reached _).issueFire run (fun m => by rw [record]; rfl) _ _ _
    · exact reached _
    · exact law

/-- Every act keeps the law. -/
theorem act {s' : State} (x : ScheduleAct s s') (law : s.TalliesAccount) : s'.TalliesAccount := by
  cases x with
  | none => exact law
  | start t => exact law.startSchedule t
  | stop => exact law.stopSchedule
  | @headWritten index i c =>
    have stored : (s.setTst (s.tst.store 0 index c)).TalliesAccount := law.of_fsc rfl
    exact stored.headWritten _
  | restart t cut => exact of_reset rfl
  | coldReset cut => exact of_reset rfl
  | closeFire awaited r => exact law.closeFire awaited r
  | windowExpiry h => exact law.windowExpiry h
  | endCycle => exact law.endCycle
  | reachEntry n => exact law.reachEntry n

end State.TalliesAccount

/-- Settles O60: the law stands in FSC alone, and every act on the schedule keeps it. -/
theorem stepKeepsTallies : Obligations.StepKeepsTallies :=
  fun _ _ => law_of_acts (fun _ _ x law => law.of_fsc x.fsc) fun _ _ x law => law.act x

end Sys2Proof.Machine
end

section
/-! PROOFS. The schedule's commands and the part's resets: START and STOP in every schedule state (R26 to R29), START's validation (R23,
R27), the reset values, and a restart that takes effect (R178, R181). -/

namespace Sys2Proof.Machine

/-! ### The owner of START and STOP -/

section
variable (s : State) (t : PartTime) (h : CommandHeader) (cut : Cut)

theorem State.runCommand_start : s.runCommand t (commandFrame h 3 []) cut = s.actStart t :=
  rfl

theorem State.runCommand_stop : s.runCommand t (commandFrame h 4 []) cut = s.actStop :=
  rfl

end

section
variable {s : State} (t : PartTime)

theorem State.actStart_resumed (stopping : s.fsc.state = .stopping) :
    s.actStart t = ⟨s.setFsc { s.fsc with state := .running }, .done, []⟩ := by
  simp [State.actStart, State.startSchedule, stopping]

theorem State.actStart_running (running : s.fsc.state = .running) : s.actStart t = ⟨s, .done, []⟩ := by
  simp [State.actStart, State.startSchedule, running]

theorem State.actStart_valid (idle : s.fsc.state = .stopped ∨ s.fsc.state = .halted) (valid : s.offending = none) :
    s.actStart t = ⟨s.beginRun t, .done, []⟩ := by
  rcases idle with state | state <;> simp [State.actStart, State.startSchedule, State.validateAndRun, state, valid]

theorem State.actStart_invalid (idle : s.fsc.state = .stopped ∨ s.fsc.state = .halted) {n : Nat} (invalid : s.offending = some n) :
    s.actStart t = ⟨s.halt, .configError, [byteOf n]⟩ := by
  rcases idle with state | state <;> simp [State.actStart, State.startSchedule, State.validateAndRun, state, invalid]

theorem State.stopSchedule_running (running : s.fsc.state = .running) : s.stopSchedule = s.setFsc { s.fsc with state := .stopping } := by
  simp [State.stopSchedule, running]

theorem State.stopSchedule_other (other : s.fsc.state ≠ .running) : s.stopSchedule = s := by
  unfold State.stopSchedule
  split
  · contradiction
  all_goals rfl

end

/-- START, taken, whose owner raises no notice. -/
theorem exec_start_answered {s u : State} {h : CommandHeader} (takes : s.takes h = true) {t : PartTime} {status : Status} {data : Bytes}
    (ready : u.ready = s.ready) (acts : (s.begun t).actStart t = ⟨u.begun t, status, data⟩) :
    exec (.start t h []) s = .next (u.withAnswer t h status.code data) :=
  congrArg _ (State.commandArrives_answered takes ready ((State.runCommand_start _ t h Cut.nothing).trans acts))

/-- START, taken, whose owner raises a notice. -/
theorem exec_start_noticed {s u : State} {h : CommandHeader} (takes : s.takes h = true) {t : PartTime} {status : Status} {data : Bytes}
    (ready : u.ready = s.ready) (any : u.rqu.notices.any = true)
    (acts : (s.begun t).actStart t = ⟨(u.begun t).claim .notices, status, data⟩) :
    exec (.start t h []) s = .next (u.withNoticeThenAnswer t h status.code data) :=
  congrArg _ (State.commandArrives_noticed takes ready any ((State.runCommand_start _ t h Cut.nothing).trans acts))

/-- STOP, taken: DONE, and what the schedule does. -/
theorem exec_stop_answered {s u : State} {h : CommandHeader} (takes : s.takes h = true) {t : PartTime}
    (ready : u.ready = s.ready) (acts : (s.begun t).stopSchedule = u.begun t) :
    exec (.stop t h []) s = .next (u.withAnswer t h 0 []) :=
  congrArg _ (State.commandArrives_answered takes ready (status := .done)
    ((State.runCommand_stop _ t h Cut.nothing).trans (by rw [State.actStop, acts])))

/-- Settles O15: in each schedule state the owner of STOP or START changes the schedule state at most. -/
theorem stopAndResume : Obligations.StopAndResume := by
  intro t h s takes
  have stop_other (other : s.fsc.state ≠ .running) : exec (.stop t h []) s = .next (s.withAnswer t h 0 []) :=
    exec_stop_answered takes rfl (State.stopSchedule_other (s := s.begun t) other)
  refine ⟨fun running => ⟨?_, ?_⟩, fun stopping => ⟨stop_other (by simp [stopping]), ?_⟩, fun idle => stop_other ?_⟩
  · exact exec_stop_answered takes rfl (State.stopSchedule_running (s := s.begun t) running)
  · exact exec_start_answered takes (status := .done) rfl (State.actStart_running (s := s.begun t) t running)
  · exact exec_start_answered takes (status := .done) rfl (State.actStart_resumed (s := s.begun t) t stopping)
  · rcases idle with state | state <;> simp [state]

/-! ### START's validation (R23, R27) -/

/-- Validation with a header loaded: the first entry that is not sound offends; where all are, it passes with an END and offends with 48
without one. -/
theorem State.offending_cases {s : State} {roundLength : Nat} (loaded : s.tst.header = some roundLength) :
    (∃ k, k < 48 ∧ ¬ s.EntrySound roundLength k ∧ (∀ m, m < k → s.EntrySound roundLength m) ∧ s.offending = some k)
    ∨ ((∀ n, n < 48 → s.EntrySound roundLength n) ∧ s.offending = if s.finIndex < 48 then none else some 48) := by
  have sound {n : Nat} (hn : n < 48) := s.entryPasses_iff hn loaded
  unfold State.offending
  rw [if_neg (by simp [loaded])]
  cases first : (List.range 48).find? fun n => !s.entryPasses n with
  | none =>
    exact .inr ⟨fun n hn => (sound hn).1 (by simpa using List.find?_eq_none.1 first n (List.mem_range.2 hn)), rfl⟩
  | some k =>
    obtain ⟨fails, mem, before⟩ := List.find?_range_eq_some.1 first
    have hk : k < 48 := by simpa using mem
    refine .inl ⟨k, hk, fun x => ?_, fun m hm => (sound (by omega)).1 (by simpa using before m hm), rfl⟩
    simp [(sound hk).2 x] at fails

/-- An entry of a sound schedule before the END is a SHOT that passes. -/
theorem State.EntrySound.shot {s : State} {roundLength n : Nat} (x : s.EntrySound roundLength n) (hn : n < s.finIndex) (h48 : n < 48) :
    s.ShotPasses roundLength n := by
  have before : ¬ s.afterEnd n := fun e => by have := (s.afterEnd_iff h48).1 e; omega
  rcases x with ⟨-, shot⟩ | ⟨-, -, o, e, -⟩ | ⟨after, -⟩
  · exact shot
  · have := s.finIndex_le h48 (by rw [e]; rfl)
    omega
  · exact absurd after before

theorem State.ShotPasses.not_fin {s : State} {roundLength n : Nat} (x : s.ShotPasses roundLength n) : (s.entry n).isFin = false := by
  obtain ⟨o, h, p, phase, w, steal, e, -⟩ := x
  rw [e]; rfl

theorem State.finIndex_le_48 (s : State) : s.finIndex ≤ 48 :=
  s.scheduleList_length ▸ List.findIdx_le_length

/-- Without an END, every entry is sound exactly when every one is a SHOT that passes (R27). -/
theorem State.sound_iff_shots {s : State} {roundLength : Nat} :
    ((∀ n, n < 48 → s.EntrySound roundLength n) ∧ s.finIndex = 48) ↔ ∀ n, n < 48 → s.ShotPasses roundLength n := by
  constructor
  · rintro ⟨sound, none_⟩ n hn
    exact (sound n hn).shot (none_ ▸ hn) hn
  · intro shots
    have none_ : s.finIndex = 48 := by
      have := s.lt_finIndex (n := 47) (by omega) fun m hm => (shots m (by omega)).not_fin
      have := s.finIndex_le_48
      omega
    exact ⟨fun n hn => .inl ⟨fun e => by have := (s.afterEnd_iff hn).1 e; omega, shots n hn⟩, none_⟩

/-- With an END, every entry is sound exactly when the schedule is valid (R23, R27). -/
theorem State.sound_iff_valid {s : State} {roundLength : Nat} (loaded : s.tst.header = some roundLength) :
    ((∀ n, n < 48 → s.EntrySound roundLength n) ∧ s.finIndex < 48) ↔ s.ScheduleValid := by
  constructor
  · rintro ⟨sound, found⟩
    refine ⟨roundLength, s.finIndex, loaded, ?_⟩
    have notAfter : ¬ s.afterEnd s.finIndex := fun e => by have := (s.afterEnd_iff found).1 e; omega
    have isFin : (s.entry s.finIndex).isFin = true := by
      rw [s.entry_eq_getElem found]
      exact List.findIdx_getElem (w := by rw [s.scheduleList_length]; exact found)
    rcases sound s.finIndex found with ⟨-, shot⟩ | ⟨-, one, fin⟩ | ⟨after, -⟩
    · simp [shot.not_fin] at isFin
    · refine ⟨one, found, fin, fun n hn => (sound n (by omega)).shot hn (by omega), fun n hn h48 => ?_⟩
      have after : s.afterEnd n := (s.afterEnd_iff h48).2 hn
      rcases sound n h48 with ⟨off, -⟩ | ⟨off, -⟩ | ⟨-, none_⟩
      · exact absurd after off
      · exact absurd after off
      · exact none_
    · exact absurd after notAfter
  · rintro ⟨roundLength', last, loaded', one, h48, fin, shots, nones⟩
    obtain rfl : roundLength = roundLength' := Option.some.inj (loaded.symm.trans loaded')
    obtain ⟨o, e, range⟩ := fin
    have at_ : s.finIndex = last := s.finIndex_eq h48 e fun m hm => (shots m hm).not_fin
    refine ⟨fun n hn => ?_, at_ ▸ h48⟩
    have after := s.afterEnd_iff hn
    rw [at_] at after
    rcases Nat.lt_trichotomy n last with lt | rfl | gt
    · exact .inl ⟨fun x => by have := after.1 x; omega, shots n lt⟩
    · exact .inr (.inl ⟨fun x => by have := after.1 x; omega, one, o, e, range⟩)
    · exact .inr (.inr ⟨after.2 gt, nones n gt hn⟩)

theorem State.offending_unloaded {s : State} (unloaded : s.tst.header = none) : s.offending = some 255 := by
  simp [State.offending, unloaded]

/-- Settles O14: the cases of validation, beside what soundness of all entries means with and without an END. -/
theorem validationIsR27 : Obligations.ValidationIsR27 := by
  intro s
  cases loaded : s.tst.header with
  | none =>
    refine ⟨?_, by simp [State.offending_unloaded loaded], nofun⟩
    rw [State.offending_unloaded loaded]
    refine ⟨nofun, fun ⟨_, _, loaded', _⟩ => ?_⟩
    rw [loaded] at loaded'
    cases loaded'
  | some roundLength =>
    rw [← State.sound_iff_valid loaded]
    have most := s.finIndex_le_48
    rcases State.offending_cases loaded with ⟨k, hk, bad, good, offends⟩ | ⟨all, offends⟩ <;> rw [offends]
    · refine ⟨⟨nofun, fun x => absurd (x.1 k hk) bad⟩, ⟨fun e => ?_, nofun⟩, fun L e => ?_⟩
      · have := Option.some.inj e
        omega
      · obtain rfl := Option.some.inj e
        rw [← State.sound_iff_shots]
        refine ⟨fun n hn => ⟨fun e => Option.some.inj e ▸ ⟨bad, good⟩, fun ⟨bad', good'⟩ => ?_⟩, fun e => ?_,
          fun x => absurd (x.1 k hk) bad⟩
        · exact congrArg some (Nat.le_antisymm (Nat.not_lt.1 fun lt => bad' (good n lt)) (Nat.not_lt.1 fun lt => bad (good' k lt)))
        · have := Option.some.inj e
          omega
    · split_ifs with found
      · refine ⟨⟨fun _ => ⟨all, found⟩, fun _ => rfl⟩, ⟨nofun, nofun⟩, fun L e => ?_⟩
        obtain rfl := Option.some.inj e
        rw [← State.sound_iff_shots]
        exact ⟨fun n hn => ⟨nofun, fun x => absurd (all n hn) x.1⟩, nofun, fun x => by omega⟩
      · refine ⟨⟨nofun, fun x => absurd x.2 found⟩, ⟨nofun, nofun⟩, fun L e => ?_⟩
        obtain rfl := Option.some.inj e
        rw [← State.sound_iff_shots]
        refine ⟨fun n hn => ⟨fun e => ?_, fun x => absurd (all n hn) x.1⟩, fun _ => ⟨all, by omega⟩, fun _ => rfl⟩
        have := Option.some.inj e
        omega

/-! ### START with a valid and with an invalid schedule -/

/-- The level recomputed, with LEVEL_CHANGE raised exactly when it differs (R45). -/
theorem State.recomputeLevel_same {s : State} (same : s.levelOf = s.fsc.level) : s.recomputeLevel = s :=
  if_pos same

theorem State.recomputeLevel_changed {s : State} (differs : s.levelOf ≠ s.fsc.level) :
    s.recomputeLevel = (s.setFsc { s.fsc with level := s.levelOf }).raiseLevelChange :=
  if_neg differs

/-- The run begun, the level not yet recomputed (R26, R31, R43). -/
def State.runBegun (s : State) (t : PartTime) : State :=
  ((s.setFsc { s.fsc with state := .running }).beginRound).beginCycle 0 t

theorem State.beginRun_eq (s : State) (t : PartTime) : s.beginRun t = (s.runBegun t).recomputeLevel :=
  rfl

theorem State.runBegun_levelOf (s : State) (t : PartTime) : (s.runBegun t).levelOf = s.runningLevel :=
  rfl

/-- Settles O12: the schedule begins running, and the level that R45 then gives decides whether a notice precedes the answer. -/
theorem startRunsValidSchedule : Obligations.StartRunsValidSchedule := by
  intro t h s takes idle valid started
  have passes : s.offending = none := ((validationIsR27 s).1).2 valid
  have acts := State.actStart_valid (s := s.begun t) t idle passes
  have level : ((s.begun t).runBegun t).levelOf = s.runningLevel := (s.begun t).runBegun_levelOf t
  have held : ((s.begun t).runBegun t).fsc.level = s.fsc.level := rfl
  rw [State.beginRun_eq] at acts
  refine ⟨fun same => ?_, fun differs => ?_⟩
  · refine exec_start_answered takes (u := started) (status := .done) rfl (acts.trans (congrArg (Reply.mk · _ _) ?_))
    rw [State.recomputeLevel_same (by rw [level, held, same])]
    simp only [started, same]
    rfl
  · refine exec_start_noticed takes (u := { started with rqu := { s.rqu with notices := { s.rqu.notices with levelChange := true } } })
      (status := .done) rfl (by simp [Notices.any]) (acts.trans (congrArg (Reply.mk · _ _) ?_))
    rw [State.recomputeLevel_changed (by rw [level, held]; exact differs), level]
    rfl

/-- A halt leaves level 3, and raises SCHEDULE_HALTED and, when the level was lower, LEVEL_CHANGE (R28, R45). -/
theorem State.halt_eq (s : State) (quiet : s.ready = none) :
    s.halt = ({ s with
      fsc := { s.fsc with state := .halted, level := .config }
      rqu := { s.rqu with notices :=
        { s.rqu.notices with
          scheduleHalted := true
          levelChange := s.rqu.notices.levelChange || decide (s.fsc.level ≠ .config) } } } : State).claim .notices := by
  unfold State.halt
  by_cases same : s.fsc.level = .config
  · rw [State.recomputeLevel_same (by rw [State.levelOf]; exact same.symm)]
    simp only [same, ne_eq, not_true_eq_false, decide_false, Bool.or_false]
    rw [← same]
    rfl
  · rw [State.recomputeLevel_changed (by rw [State.levelOf]; exact fun e => same e.symm)]
    simp [same, State.raiseLevelChange, State.raiseScheduleHalted, State.claim, State.setReady, State.setRqu, State.setFsc, quiet,
      State.levelOf]

/-- Settles O13: the halt raises its notices before the answer is formed. -/
theorem startRefusesInvalidSchedule : Obligations.StartRefusesInvalidSchedule := by
  intro t h s n takes idle invalid
  refine exec_start_noticed takes (status := .configError) rfl (by simp [Notices.any])
    ((State.actStart_invalid (s := s.begun t) t idle invalid).trans (congrArg (Reply.mk · _ _) ?_))
  exact (s.begun t).halt_eq rfl

/-! ### Resets -/

/-- Settles O4: the reset state's fields, as they stand. -/
theorem resetValues : Obligations.ResetValues := by
  have unloaded : ∀ table index, State.reset.tst.loaded table index = false := by
    intro table index
    have none_ {α : Type} (n : Nat) : ((Vector.replicate n (none : Option α))[index]?.join).isSome = false := by
      rw [Vector.getElem?_replicate]
      split_ifs <;> rfl
    unfold Tst.loaded
    split
    all_goals first | rfl | exact none_ _
  refine ⟨by decide, by decide, by decide, by decide, rfl, rfl, by decide, by decide, by decide, by decide, unloaded⟩

/-- Settles O56: at reset every queue is empty, no head is enabled, no shell is live and no tally is held. -/
theorem lawsHoldAtReset : Obligations.LawsHoldAtReset := by
  refine ⟨?_, ?_, ?_, ?_⟩
  · simp [State.Capacities, State.BuffersBounded, State.HistoryOrdered, State.AnnounceBounded, State.ItemsBounded, State.WindowBounded,
      State.RoomReserved, State.liveCount, State.ctx, State.reset, Lcp.reset, Mtr.reset, Rqu.reset, Rsq.shots, Rsq.gates, Rqu.segments]
  · exact State.HeadsAndLevel.of_reset rfl (by unfold HeadRecord.LawfulIn; decide) (by decide)
  · simp [State.Ownership, State.ContextsLawful, State.MoreOnlyHeld, State.AddressOwn, State.IdleMeansNothingWaits, State.ctx, State.reset,
      Lcp.reset, Mtr.reset, Rqu.reset, Cmu.reset]
  · exact State.TalliesAccount.of_reset rfl

/-- The restart of the model leaves what the rule says (R47, R66, R90, R104, R125, R148, R160, R161, R181, R198, R205). -/
theorem State.restart_eq (s : State) (t : PartTime) (cut : Cut) : (s.begun t).restart t cut = (s.afterRestart t cut).setReady none :=
  rfl

/-- Settles O6: a restart leaves no answer, notice or result, so that the transmitter that its answer frees goes on with the forward
buffer. -/
theorem restartTakesEffect : Obligations.RestartTakesEffect := by
  intro t cut s rst
  have taken : exec (.restartTakesEffect t cut) s = .next (((s.begun t).restartDue t cut).settled.setReady s.ready) :=
    congrArg _ (acting_of_rstHigh rst t _)
  refine ⟨fun sending => ?_, fun sent => ?_⟩
  · intro s1
    have due : (s.begun t).restartDue t cut = (s1.setReady none).arbitrate := by
      unfold State.restartDue
      rw [show (s.begun t).cmu.state = _ from sending]
      rfl
    rw [taken, due]
    refine ⟨fun empty => ?_, fun f rest waiting => ?_⟩
    · have stays : (s1.setReady none).arbitrate = s1.setReady none := by
        unfold State.arbitrate
        rw [show (s1.setReady none).lcp.up = [] from empty]
        rfl
      rw [stays]
      rfl
    · have goes : (s1.setReady none).arbitrate = (s1.setReady none).sendForward f rest := by
        unfold State.arbitrate
        rw [show (s1.setReady none).lcp.up = f :: rest from waiting]
        rfl
      rw [goes]
      rfl
  · have due : (s.begun t).restartDue t cut = (s.afterRestart t cut).setReady none := by
      unfold State.restartDue
      rw [show (s.begun t).cmu.state = _ from sent]
      exact s.restart_eq t cut
    rw [taken, due]
    rfl

end Sys2Proof.Machine
end

section
/-! PROOFS. Firing points (R24, R25, R33 to R35), and the reports of the heads that match no fire or are malformed (R37, R40, R41, R204). -/

namespace Sys2Proof.Machine

/-! ### Firing points -/

/-- The cycle has passed entry `n`, at its offset (R31, R33). -/
def State.reached (s : State) (offset n : Nat) : State :=
  (s.setTime (later s.fsc.cycleStart offset)).setFsc { s.fsc with place := n + 1 }

/-- A firing point that the cycle has not passed is reached, and fires or is skipped when the count selects it (R24, R33). -/
theorem State.reachEntry_ahead {s : State} {n offset : Nat} {h : Fin 8} {period phase : Nat} {w : Fin 4} {steal : Bool} (hn : n < 48)
    (entry : s.entry n = .shot offset h period phase w steal) (run : s.cyclesRun = true) (ends : ∀ m, m ≤ n → (s.entry m).isFin = false)
    (ahead : s.fsc.place ≤ n) :
    s.reachEntry n = if s.fsc.cycleCount % period = phase then (s.reached offset n).firePoint n (later s.fsc.cycleStart offset) h w steal
      else s.reached offset n := by
  have point : s.pointAhead n = true := by simp [State.pointAhead, run, s.lt_finIndex hn ends, ahead]
  rw [State.reachEntry, entry]
  exact if_pos point

/-- A firing point of a head with a fire outstanding is skipped (R33). -/
theorem State.firePoint_awaited {s : State} {h : Fin 8} (awaited : ∃ seq kind expiry round, s.fire h = .outstanding seq kind expiry round)
    (n : Nat) (t : PartTime) (w : Fin 4) (steal : Bool) : s.firePoint n t h w steal = s.skipFire h t n := by
  obtain ⟨seq, kind, expiry, round, record⟩ := awaited
  rw [State.firePoint, record]

/-- Settles O40: a skip counts in the round's tally and reports TRIGGER_SKIP, and an unselected entry is passed. -/
theorem firingPointSkips : Obligations.FiringPointSkips := by
  intro s n offset h period phase w steal rst run entry ends ahead t
  have point := State.reachEntry_ahead (s := s.setReady none) n.isLt entry run ends ahead
  refine ⟨fun selected awaited => ?_, fun passes => ?_⟩ <;>
    refine (congrArg _ (actingTimed_of_rstHigh rst _)).trans (congrArg _ ?_)
  · rw [point.trans (if_pos selected), State.firePoint_awaited (s := (s.setReady none).reached offset n.val) awaited]
    refine Eq.trans ?_ (State.settled_report _ _ _ _ _)
    rfl
  · rw [point.trans (if_neg passes)]
    rfl

/-- Deferral holds exactly while its flag is set and a shell may hold shots (R34). -/
theorem State.deferral_iff (s : State) :
    s.deferral = true ↔ s.calSetup.defer = true ∧ ∃ i c, s.ctx i = some c ∧ (c.phase = .measuring ∨ c.phase = .tailing) := by
  rw [State.deferral, Bool.and_eq_true, State.anyCtx_iff]
  simp [ShellContext.holdsShots]

/-- CALIBRATE exactly when the request names the head, the entry allows the steal and deferral does not hold (R34). -/
theorem State.fireKind_eq (s : State) (h : Fin 8) (steal : Bool) :
    s.fireKind h steal = if s.hcu.request = some h ∧ steal = true
      ∧ ¬ (s.calSetup.defer = true ∧ ∃ i c, s.ctx i = some c ∧ (c.phase = .measuring ∨ c.phase = .tailing))
      then .calibrate else .measure := by
  exact if_congr (by rw [← State.deferral_iff, Bool.not_eq_true]) rfl rfl

/-- A head with no fire outstanding fires in the profile's window for the kind (R25, R33, R35). -/
theorem State.firePoint_free {s : State} {h : Fin 8} (free : ∀ seq kind expiry round, s.fire h ≠ .outstanding seq kind expiry round)
    {w : Fin 4} {profile : Profile} (loaded : s.tst.profiles[w] = some profile) (n : Nat) (t : PartTime) (steal : Bool) :
    s.firePoint n t h w steal = s.issueFire h (s.fireKind h steal) t (profile.window (s.fireKind h steal)) := by
  unfold State.firePoint
  rw [loaded]
  split
  · rename_i awaited
    exact absurd awaited (free _ _ _ _)
  · rfl
  · rfl

/-- Settles O39: the fire of the kind that R34 gives is issued. -/
theorem firingPointFires : Obligations.FiringPointFires := by
  intro s n offset h period phase w steal profile rst run entry ends ahead selected loaded free t calibrate fired
  have point := State.reachEntry_ahead (s := s.setReady none) n.isLt entry run ends ahead
  have fires (kind : FireKind) (kind_eq : s.fireKind h steal = kind) :
      exec (.firingPoint n) s = .next (fired kind kind.code (profile.window kind)) := by
    refine (congrArg _ (actingTimed_of_rstHigh rst _)).trans (congrArg _ ?_)
    have kind_eq' : ((s.setReady none).reached offset n.val).fireKind h steal = kind := kind_eq
    rw [point.trans (if_pos selected), State.firePoint_free (s := (s.setReady none).reached offset n.val) free loaded, kind_eq']
    rfl
  exact ⟨fun steals => fires .calibrate ((s.fireKind_eq h steal).trans (if_pos steals)),
    fun keeps => fires .measure ((s.fireKind_eq h steal).trans (if_neg keeps))⟩

/-! ### Reports from the heads -/

theorem headOfNode_eq {node : Byte} {h : Fin 8} (e : node.toNat = h.val + 1) : headOfNode node = h := by
  refine Fin.ext ?_
  simp only [headOfNode, headAt, e, Nat.add_sub_cancel, Fin.ofNat]
  exact Nat.mod_eq_of_lt h.isLt

/-- A shot report that is received reaches its head's payload check (R203, R204). -/
theorem exec_shotReport {s : State} {h : Fin 8} {node : Byte} (hears : s.hearsHeadLink = true) (e : node.toNat = h.val + 1) (t : PartTime)
    (payload : Bytes) :
    exec (.shotReport t node payload) s = .next (((s.begun t).shotFrame t h payload).settled.setReady s.ready) := by
  obtain ⟨rst, listens⟩ : s.rstHigh = true ∧ s.hlp.discarding = false := by simpa [State.hearsHeadLink] using hears
  have routed : (s.begun t).headArrival t ⟨node, kindShotReport, payload⟩ = (s.begun t).shotFrame t h payload := by
    have inside : kindShotReport = kindShotReport ∧ 1 ≤ node.toNat ∧ node.toNat ≤ 8 := ⟨rfl, by omega, by omega⟩
    rw [State.headArrival, if_neg (by simp [State.begun, listens]), if_pos inside, headOfNode_eq e]
  exact congrArg _ ((acting_of_rstHigh rst t _).trans (by rw [routed]))

/-- A report that finds no fire outstanding with its sequence and kind: what it is reported as (R37, R40, R41). -/
theorem exec_shotReport_discarded {s : State} {h : Fin 8} {node : Byte} (hears : s.hearsHeadLink = true) (e : node.toNat = h.val + 1)
    (t : PartTime) {payload : Bytes} {r : ShotReport} (read : readShotReport payload = some r) (kind : CaptureKind)
    (discards : (s.begun t).matchReport t h r = (s.begun t).report kind (.head h) t r.seq.toNat) :
    exec (.shotReport t node payload) s = .next (({ s with partTime := t } : State).captures kind (.head h) t r.seq.toNat) := by
  rw [exec_shotReport hears e, State.shotFrame, read]
  dsimp only
  rw [discards]
  exact congrArg _ (State.settled_report { s with partTime := t } kind (.head h) t r.seq.toNat)

theorem groups_length (n size : Nat) (p : Bytes) : (groups n size p).length = n := by
  induction n generalizing p with
  | zero => rfl
  | succ m ih => simp [groups, ih]

theorem groups_getElem (n size : Nat) (p : Bytes) (i : Nat) (hi : i < (groups n size p).length) :
    (groups n size p)[i] = (p.drop (i * size)).take size := by
  induction n generalizing p i with
  | zero => simp [groups] at hi
  | succ m ih =>
    cases i with
    | zero => simp [groups]
    | succ i => simp [groups, ih, Nat.succ_mul, Nat.add_comm]

/-- Echo times that ascend do so from each echo to the next (R204). -/
theorem ascending_next {l : List Echo} (asc : ascending l = true) {i : Nat} (hi : i + 1 < l.length) : l[i].time < l[i + 1].time := by
  induction l generalizing i with
  | nil => simp at hi
  | cons a l ih =>
    cases l with
    | nil => simp at hi
    | cons b l =>
      obtain ⟨first, rest⟩ : a.time < b.time ∧ ascending (b :: l) = true := by simpa [ascending] using asc
      cases i with
      | zero => exact first
      | succ i => exact ih rest (by simpa using hi)

theorem readEchoes_time (p : Bytes) (i : Nat) (hi : i < (readEchoes p).length) :
    (readEchoes p)[i].time = field p (10 + 4 * i) 4 / 4096 := by
  simp only [readEchoes, List.getElem_map, groups_getElem, readEcho, List.drop_drop]
  rw [field_take_drop p (start := 10 + i * 4) (len := 4) (by decide), Nat.mul_comm i 4]
  rfl

theorem readEchoes_length (p : Bytes) : (readEchoes p).length = field p 9 1 := by
  rw [readEchoes, List.length_map, groups_length]

/-- A payload that R204 calls malformed is not read. -/
theorem readShotReport_malformed {p : Bytes}
    (malformed : 6 < field p 9 1 ∨ p.length ≠ 10 + 4 * field p 9 1 ∨ 1 < field p 1 1
      ∨ ∃ i, i + 1 < field p 9 1 ∧ field p (10 + 4 * (i + 1)) 4 / 4096 ≤ field p (10 + 4 * i) 4 / 4096) :
    readShotReport p = none := by
  unfold readShotReport
  split_ifs with short many long unordered
  iterate 4 rfl
  rcases malformed with e | e | e | ⟨i, hi, e⟩
  · exact absurd e many
  · exact absurd e long
  · rw [readKind, if_neg (by omega), if_neg (by omega)]
    rfl
  · have asc : ascending (readEchoes p) = true := by simpa using unordered
    have hi' : i + 1 < (readEchoes p).length := by rwa [readEchoes_length]
    have := ascending_next asc hi'
    rw [readEchoes_time, readEchoes_time] at this
    omega

/-- A field of one byte is the byte that stands there. -/
theorem getD_toNat {p : Bytes} {i : Nat} (hi : i < p.length) (d : Byte) : (p.getD i d).toNat = field p i 1 := by
  rw [List.getD_eq_getElem _ _ hi, field, List.drop_eq_getElem_cons hi]
  simp only [bytesToNat, List.take_succ_cons, List.take_zero, List.foldl_cons, List.foldl_nil, Nat.zero_mul, Nat.zero_add]

theorem State.report_setFree (s : State) (kind : CaptureKind) (source : CaptureSource) (time : PartTime) (detail n : Nat) :
    (s.report kind source time detail).setFree n = (s.setFree n).report kind source time detail := by
  unfold State.report
  rw [State.setFree_cmu]
  cases s.cmu.capture <;> rfl

/-- Settles O35: a report that matches nothing is reported, with its sequence; a malformed one with what it holds of count and sequence. -/
theorem unmatchedReportsDiscarded : Obligations.UnmatchedReportsDiscarded := by
  refine ⟨fun t s h node payload r hears e read => ?_, fun t s h node payload hears e malformed => ?_⟩
  · have record : (s.begun t).fire h = s.fire h := rfl
    have differs {seq : Byte} {kind : FireKind} (off : seq ≠ r.seq ∨ kind ≠ r.kind) : ¬ (r.seq = seq ∧ r.kind = kind) :=
      fun ⟨sameSeq, sameKind⟩ => off.elim (· sameSeq.symm) (· sameKind.symm)
    refine ⟨fun idle => ?_, fun expired => ?_, fun seq kind expired off => ?_, fun seq kind expiry round awaited off => ?_⟩ <;>
      refine exec_shotReport_discarded hears e t read _ ?_ <;> rw [State.matchReport, record]
    · rw [idle]
    · rw [expired]
      exact if_pos ⟨rfl, rfl⟩
    · rw [expired]
      exact if_neg (differs off)
    · rw [awaited]
      exact if_neg (differs off)
  · rw [exec_shotReport hears e, State.shotFrame, readShotReport_malformed malformed]
    dsimp only
    unfold State.malformedShot malformedDetail
    refine ⟨fun whole => ?_, fun short => ?_⟩
    · rw [if_neg (by omega), getD_toNat (by omega), getD_toNat (by omega)]
      exact congrArg _ (State.settled_report { s with partTime := t } _ _ _ _)
    · refine ⟨payload.getD 9 (Config.freeByte (s.freeCount + 1)), payload.getD 0 (Config.freeByte s.freeCount), ?_, ?_⟩
      · rintro b rest rfl
        rfl
      · rw [if_pos short]
        refine congrArg _ (Eq.trans ?_ (State.settled_report { s with partTime := t, freeCount := s.freeCount + 2 } _ _ _ _))
        exact congrArg (fun a => a.settled.setReady s.ready) ((s.begun t).report_setFree _ _ _ _ _)

end Sys2Proof.Machine
end

section
/-! PROOFS. Notices through an event (R45, R146, R157): what the operations that raise no other claimant do to the notice set, and what an
idle transmitter makes of it once the step is whole. -/

namespace Sys2Proof.Machine

/-! ### The notice kinds (R146, R209) -/

/-- The seven kinds of the notice set, in the order of the kinds byte. -/
def Notices.flags (n : Notices) : List Bool :=
  [n.levelChange, n.headLost, n.headBack, n.calOverrun, n.calClamped, n.captureHeld, n.scheduleHalted]

/-- The kind at a place of the kinds byte is pending. -/
def Notices.pending (n : Notices) (place : Nat) : Bool :=
  (noticeKinds n).getLsbD place

theorem packBits_testBit (l : List Bool) (i : Nat) : (packBits l).testBit i = l.getD i false := by
  induction l generalizing i with
  | nil => simp [packBits]
  | cons b l ih =>
    cases i with
    | zero => cases b <;> simp [packBits, flagNat, Nat.testBit_zero]
    | succ i =>
      have half : (flagNat b + 2 * packBits l) / 2 = packBits l := by cases b <;> simp [flagNat, Nat.add_mul_div_left]
      rw [packBits, Nat.testBit_succ, half, ih]
      rfl

theorem Notices.pending_eq (n : Notices) (place : Nat) : n.pending place = (decide (place < 8) && n.flags.getD place false) := by
  rw [Notices.pending, noticeKinds, byteOf, BitVec.getLsbD_ofNat, packBits_testBit]
  rfl

theorem Notices.any_of_pending {n : Notices} {place : Nat} (p : n.pending place = true) : n.any = true := by
  have mem : true ∈ n.flags := by
    have at_ : n.flags.getD place false = true := by
      rw [Notices.pending_eq, Bool.and_eq_true] at p
      exact p.2
    rw [List.getD_eq_getElem?_getD] at at_
    cases e : n.flags[place]? with
    | none => simp [e] at at_
    | some b =>
      rw [e, Option.getD_some] at at_
      exact at_ ▸ List.mem_of_getElem? e
  have any : n.any = n.flags.any id := by simp [Notices.flags, Notices.any, Bool.or_assoc]
  rw [any, List.any_eq_true]
  exact ⟨true, mem, rfl⟩

/-- The set `n'` is the set `n` with the kind at a place raised. -/
def Notices.Raises (n n' : Notices) (place : Nat) : Prop :=
  n'.flags = n.flags.set place true

theorem Notices.Raises.pending {n n' : Notices} {place : Nat} (r : n.Raises n' place) (h : place < 7) : n'.pending place = true := by
  have long : place < n.flags.length := h
  rw [Notices.pending_eq, r, List.getD_eq_getElem?_getD, List.getElem?_set_self long]
  simp only [Option.getD_some, Bool.and_true, decide_eq_true_eq]
  omega

theorem Notices.Raises.kept {n n' : Notices} {place : Nat} (r : n.Raises n' place) {p : Nat} (held : n.pending p = true) :
    n'.pending p = true := by
  rw [Notices.pending_eq, Bool.and_eq_true] at held ⊢
  refine ⟨held.1, ?_⟩
  rw [r, List.getD_eq_getElem?_getD, List.getElem?_set]
  split_ifs
  · rfl
  · rename_i e long
    simp [List.getD_eq_getElem?_getD, List.getElem?_eq_none (Nat.not_lt.1 (e ▸ long))] at held
  · simpa [List.getD_eq_getElem?_getD] using held.2

/-! ### What raises notices and claims nothing else -/

/-- Between two states the notice kind at a place has been raised, and the notice set has claimed the transmitter unless another claimant
came first. -/
def State.Raised (x y : State) (place : Nat) : Prop :=
  y.ready = x.ready.or (some .notices) ∧ y.rqu.notices.pending place = true

/-- An operation that touches neither LCP nor RQU but for the notice set, which claims the transmitter when it is raised, and that raises
LEVEL_CHANGE (place 0) when it changes the level. -/
structure NoticeFrame (x y : State) : Prop where
  lcp   : y.lcp = x.lcp
  rqu   : y.rqu = { x.rqu with notices := y.rqu.notices }
  claim : (y.ready = x.ready ∧ y.rqu = x.rqu) ∨ (y.ready = x.ready.or (some .notices) ∧ y.rqu.notices.any = true)
  kept  : ∀ p, x.rqu.notices.pending p = true → y.rqu.notices.pending p = true
  level : y.fsc.level ≠ x.fsc.level → x.Raised y 0

namespace NoticeFrame

theorem of_quiet {x y : State} (lcp : y.lcp = x.lcp) (rqu : y.rqu = x.rqu) (ready : y.ready = x.ready)
    (level : y.fsc.level = x.fsc.level) : NoticeFrame x y :=
  ⟨lcp, by rw [rqu], .inl ⟨ready, rqu⟩, fun p e => by rwa [rqu], fun n => absurd level n⟩

theorem refl (x : State) : NoticeFrame x x :=
  of_quiet rfl rfl rfl rfl

theorem ready_or {x y : State} (f : NoticeFrame x y) : y.ready.or (some .notices) = x.ready.or (some .notices) := by
  rcases f.claim with ⟨e, -⟩ | ⟨e, -⟩ <;> rw [e]
  rw [Option.or_assoc, Option.or_self]

/-- What has been raised stays raised. -/
theorem raised_after {x y z : State} {place : Nat} (r : x.Raised y place) (g : NoticeFrame y z) : x.Raised z place := by
  refine ⟨?_, g.kept place r.2⟩
  have claimed : y.ready.or (some .notices) = y.ready := by rw [r.1, Option.or_assoc, Option.or_self]
  rcases g.claim with ⟨e, -⟩ | ⟨e, -⟩
  · rw [e, r.1]
  · rw [e, claimed, r.1]

theorem raised_before {x y z : State} {place : Nat} (f : NoticeFrame x y) (r : y.Raised z place) : x.Raised z place :=
  ⟨r.1.trans f.ready_or, r.2⟩

theorem trans {x y z : State} (f : NoticeFrame x y) (g : NoticeFrame y z) : NoticeFrame x z where
  lcp := g.lcp.trans f.lcp
  rqu := by rw [g.rqu, f.rqu]
  claim := by
    rcases g.claim with ⟨e, same⟩ | ⟨e, any⟩
    · rw [e, same]
      exact f.claim
    · exact .inr ⟨e.trans f.ready_or, any⟩
  kept := fun p e => g.kept p (f.kept p e)
  level := fun n => by
    by_cases changed : y.fsc.level = x.fsc.level
    · exact f.raised_before (g.level fun e => n (e.trans changed))
    · exact raised_after (f.level changed) g

/-- A kind raised; the level may have changed with LEVEL_CHANGE alone. -/
theorem of_raise {x y : State} {place : Nat} (r : x.rqu.notices.Raises y.rqu.notices place) (h : place < 7) (lcp : y.lcp = x.lcp)
    (rqu : y.rqu = { x.rqu with notices := y.rqu.notices }) (ready : y.ready = x.ready.or (some .notices))
    (level : place = 0 ∨ y.fsc.level = x.fsc.level) : NoticeFrame x y ∧ x.Raised y place := by
  have raised : x.Raised y place := ⟨ready, r.pending h⟩
  exact ⟨⟨lcp, rqu, .inr ⟨ready, Notices.any_of_pending raised.2⟩, fun p e => r.kept e,
    fun n => level.elim (fun e => e ▸ raised) fun e => absurd e n⟩, raised⟩

theorem raiseHeadLost (s : State) : NoticeFrame s s.raiseHeadLost ∧ s.Raised s.raiseHeadLost 1 :=
  of_raise rfl (by decide) rfl rfl rfl (.inr rfl)

theorem raiseHeadBack (s : State) : NoticeFrame s s.raiseHeadBack ∧ s.Raised s.raiseHeadBack 2 :=
  of_raise rfl (by decide) rfl rfl rfl (.inr rfl)

theorem raiseCalClamped (s : State) : NoticeFrame s s.raiseCalClamped ∧ s.Raised s.raiseCalClamped 4 :=
  of_raise rfl (by decide) rfl rfl rfl (.inr rfl)

/-- A level set with LEVEL_CHANGE (R45). -/
theorem raiseLevelChange (s : State) (l : Level) :
    NoticeFrame s (s.setFsc { s.fsc with level := l }).raiseLevelChange
      ∧ s.Raised (s.setFsc { s.fsc with level := l }).raiseLevelChange 0 :=
  of_raise rfl (by decide) rfl rfl rfl (.inl rfl)

theorem recomputeLevel (s : State) : NoticeFrame s s.recomputeLevel := by
  rcases s.recomputeLevel_eq with ⟨e, -⟩ | ⟨e, -⟩ <;> rw [e]
  · exact refl s
  · exact (raiseLevelChange s _).1

/-- The rounds' books changed, the level not. -/
theorem setFsc (s : State) (f : Fsc) (level : f.level = s.fsc.level) : NoticeFrame s (s.setFsc f) :=
  of_quiet rfl rfl rfl level

theorem degradeAll (s : State) : NoticeFrame s s.degradeAll :=
  of_quiet rfl rfl rfl rfl

theorem setHead (s : State) (h : Fin 8) (r : HeadRecord) : NoticeFrame s (s.setHead h r) :=
  of_quiet rfl rfl rfl rfl

theorem recordOutcome (s : State) (h : Fin 8) (good : Bool) : NoticeFrame s (s.recordOutcome h good) :=
  setHead s h _

/-- A head that becomes LOST (R51, R52). -/
theorem becomeLost (s : State) (h : Fin 8) (r : HeadRecord) :
    NoticeFrame s ((s.setHead h r).raiseHeadLost.degradeAll.recomputeLevel)
      ∧ s.Raised ((s.setHead h r).raiseHeadLost.degradeAll.recomputeLevel) 1 := by
  obtain ⟨f, r1⟩ := raiseHeadLost (s.setHead h r)
  have g : NoticeFrame (s.setHead h r).raiseHeadLost ((s.setHead h r).raiseHeadLost.degradeAll.recomputeLevel) :=
    (degradeAll _).trans (recomputeLevel _)
  exact ⟨((setHead s h r).trans f).trans g, raised_after ((setHead s h r).raised_before r1) g⟩

/-- A LOST head that becomes ACTIVE (R51). -/
theorem becomeActive (s : State) (h : Fin 8) (r : HeadRecord) :
    NoticeFrame s ((s.setHead h r).raiseHeadBack.recomputeLevel) ∧ s.Raised ((s.setHead h r).raiseHeadBack.recomputeLevel) 2 := by
  obtain ⟨f, r2⟩ := raiseHeadBack (s.setHead h r)
  exact ⟨((setHead s h r).trans f).trans (recomputeLevel _), raised_after ((setHead s h r).raised_before r2) (recomputeLevel _)⟩

theorem judgeMiss (s : State) (h : Fin 8) : NoticeFrame s (s.judgeMiss h) := by
  unfold State.judgeMiss
  split
  · exact refl s
  · split_ifs
    · exact (becomeLost s h _).1
    · exact refl s
  · split_ifs
    · exact (becomeActive s h _).1
    · exact refl s

theorem replied (s : State) (h : Fin 8) : NoticeFrame s (s.replied h) :=
  (setHead s h _).trans (judgeMiss _ h)

theorem missed (s : State) (h : Fin 8) : NoticeFrame s (s.missed h) :=
  (setHead s h _).trans (judgeMiss _ h)

theorem releaseRequest (s : State) (h : Fin 8) : NoticeFrame s (s.releaseRequest h) := by
  unfold State.releaseRequest
  split_ifs
  · exact of_quiet rfl rfl rfl rfl
  · exact refl s

theorem completeCalibration (s : State) (h : Fin 8) (k : Nat) (cal : CalState) : NoticeFrame s (s.completeCalibration h k cal) := by
  have judged := setHead s h { s.head h with k := k, cal := cal }
  have recorded := recordOutcome (s.setHead h { s.head h with k := k, cal := cal }) h (cal != .failed)
  have f := (judged.trans recorded).trans (releaseRequest _ h)
  unfold State.completeCalibration
  dsimp only
  split_ifs
  · exact f.trans (raiseCalClamped _).1
  · exact f

/-- A calibration that ends clamped raises CAL_CLAMPED (R64). -/
theorem completeCalibration_clamped (s : State) (h : Fin 8) (k : Nat) : s.Raised (s.completeCalibration h k .clamped) 4 := by
  have judged := setHead s h { s.head h with k := k, cal := .clamped }
  have recorded := recordOutcome (s.setHead h { s.head h with k := k, cal := .clamped }) h true
  have f := (judged.trans recorded).trans (releaseRequest _ h)
  exact f.raised_before (raiseCalClamped _).2

theorem recordMiss (s : State) (h : Fin 8) (kind : FireKind) : NoticeFrame s (s.recordMiss h kind) := by
  cases kind with
  | measure => exact (missed s h).trans (setHead _ h _)
  | calibrate => exact (missed s h).trans (completeCalibration _ h ((s.missed h).head h).k .failed)

theorem resolveRound (s : State) (round : Nat) : NoticeFrame s (s.resolveRound round) := by
  unfold State.resolveRound
  split
  · exact refl s
  · split_ifs
    · refine trans ?_ (recomputeLevel _)
      exact setFsc s _ rfl
    · exact refl s

theorem modTally (s : State) (round : Nat) (f : Tally → Tally) : NoticeFrame s (s.modTally round f) := by
  unfold State.modTally
  exact setFsc s _ rfl

theorem tallyResolved (s : State) (round : Nat) (isMiss : Bool) : NoticeFrame s (s.tallyResolved round isMiss) :=
  (modTally s round _).trans (resolveRound _ round)

theorem endRound (s : State) : NoticeFrame s s.endRound :=
  (modTally s s.fsc.round _).trans (resolveRound _ _)

/-! ### The end of such a step -/

section
variable {s u a : State}

/-- The transmitter stays as it was, or takes a notice. -/
theorem settled_cases (f : NoticeFrame u a) (start : u.ready = none) :
    (a.settled = a ∧ (a.lcp.upTx ≠ none ∨ (a.ready = none ∧ a.rqu = u.rqu)))
    ∨ (a.settled = a.sendNotice ∧ a.lcp.upTx = none ∧ a.ready = some .notices) := by
  by_cases idle : a.lcp.upTx = none
  · rcases f.claim with ⟨e, same⟩ | ⟨e, any⟩
    · rw [start] at e
      exact .inl ⟨State.settled_same a (.inl e), .inr ⟨e, same⟩⟩
    · rw [start, Option.none_or] at e
      refine .inr ⟨?_, idle, e⟩
      rw [State.settled_idle a e idle]
      simp [State.chooseFirst, any]
  · exact .inl ⟨State.settled_same a (.inr idle), .inl idle⟩

theorem settled_cmu (f : NoticeFrame u a) (start : u.ready = none) : a.settled.cmu = a.cmu := by
  rcases f.settled_cases start with ⟨e, -⟩ | ⟨e, -⟩ <;> rw [e]
  rfl

theorem settled_entries (f : NoticeFrame u a) (start : u.ready = none) : a.settled.rqu.entries = a.rqu.entries := by
  rcases f.settled_cases start with ⟨e, -⟩ | ⟨e, -⟩ <;> rw [e]
  rfl

/-- At most a notice frame leaves the upstream port (R147, R157; log 26). -/
theorem noticeAtMost (f : NoticeFrame u a) (start : u.ready = none) (lcp : u.lcp = s.lcp) (rqu : u.rqu = s.rqu) (ready : Option Claimant) :
    s.NoticeAtMost (a.settled.setReady ready) := by
  have lcp' : a.lcp = s.lcp := f.lcp.trans lcp
  have rqu' : a.rqu = { s.rqu with notices := a.rqu.notices } := rqu ▸ f.rqu
  refine ⟨fun busy => ?_, fun idle => ?_⟩
  · rw [State.settled_same a (.inr (lcp' ▸ busy))]
    exact ⟨lcp', rqu'⟩
  · rcases f.settled_cases start with ⟨e, busy | ⟨-, same⟩⟩ | ⟨e, -⟩ <;> rw [e]
    · exact absurd (lcp' ▸ idle) busy
    · exact .inl ⟨lcp', same.trans rqu⟩
    · have tag : a.rqu.tag = s.rqu.tag := by rw [rqu']
      refine .inr ⟨noticeKinds a.rqu.notices, ?_, ?_⟩
      · simp only [State.setReady_lcp, State.sendNotice, State.setRqu_lcp, State.setLcp_lcp, lcp', tag]
        rfl
      · simp only [State.setReady_rqu, State.sendNotice, State.setRqu_rqu, tag]
        rw [rqu']

end
end NoticeFrame

/-- A kind that is pending at the end of a step in which the notice set claimed the transmitter first is told (R146, R147, R157). -/
theorem State.told_of_pending {s a : State} {place : Nat} (claimed : a.ready = some .notices) (pending : a.rqu.notices.pending place = true)
    (lcp : a.lcp = s.lcp) (ready : Option Claimant) : s.Told (a.settled.setReady ready) place := by
  unfold State.Told
  split_ifs with idle
  · have takes : a.settled = a.sendNotice := by
      rw [State.settled_idle a claimed (by rw [lcp, idle])]
      simp [State.chooseFirst, Notices.any_of_pending pending]
    rw [takes]
    refine ⟨_, rfl, rfl, ?_⟩
    rw [flagBit]
    have bit : (noticeKinds a.rqu.notices).toNat.testBit place = true := pending
    simpa [State.noticePayload, field, bytesToNat] using bit
  · rw [State.settled_same a (.inr (lcp ▸ idle))]
    exact pending

theorem NoticeFrame.told {s u a : State} {place : Nat} (f : NoticeFrame u a) (start : u.ready = none) (lcp : u.lcp = s.lcp)
    (raised : u.Raised a place) (ready : Option Claimant) : s.Told (a.settled.setReady ready) place :=
  State.told_of_pending (by rw [raised.1, start]; rfl) raised.2 (f.lcp.trans lcp) ready

end Sys2Proof.Machine
end

section
/-! PROOFS. The end of a cycle, and of a round (R31, R32, R43 to R45). -/

namespace Sys2Proof.Machine

theorem TallyFrame.trans {a b c : State} (x : TallyFrame a b) (y : TallyFrame b c) : TallyFrame a c where
  partTime := y.partTime.trans x.partTime
  rstHigh := y.rstHigh.trans x.rstHigh
  hlp := y.hlp.trans x.hlp
  hcu := y.hcu.trans x.hcu
  mtr := y.mtr.trans x.mtr
  rsq := y.rsq.trans x.rsq
  wmb := y.wmb.trans x.wmb
  entries := y.entries.trans x.entries
  lcp := y.lcp.trans x.lcp
  cmu := y.cmu.trans x.cmu
  tst := y.tst.trans x.tst
  freeCount := y.freeCount.trans x.freeCount
  pending := y.pending.trans x.pending
  state := y.state.trans x.state
  cycleCount := y.cycleCount.trans x.cycleCount
  cycleStart := y.cycleStart.trans x.cycleStart
  place := y.place.trans x.place
  round := y.round.trans x.round
  records := y.records.trans x.records
  seqs := y.seqs.trans x.seqs

theorem TallyFrame.endRound (s : State) : TallyFrame s s.endRound :=
  (TallyFrame.modTally s s.fsc.round _).trans (.resolveRound _ _)

theorem TallyFrame.tallyResolved (s : State) (round : Nat) (isMiss : Bool) : TallyFrame s (s.tallyResolved round isMiss) :=
  (TallyFrame.modTally s round _).trans (.resolveRound _ _)

/-- Outside HALTED the level depends on the last round's result, the head table and the heads' states. -/
theorem State.runningLevel_congr {s s' : State} (short : s'.fsc.lastShort = s.fsc.lastShort) (table : s'.tst.heads = s.tst.heads)
    (heads : ∀ h, (s'.head h).state = (s.head h).state) : s'.runningLevel = s.runningLevel := by
  have enabled : ∀ h, s'.enabled h = s.enabled h := fun h => by simp only [State.enabled, State.headEntry, table]
  simp only [State.runningLevel, short, enabled, heads]

theorem State.recomputeLevel_runningLevel (s : State) : s.recomputeLevel.runningLevel = s.runningLevel := by
  rcases s.recomputeLevel_eq with ⟨e, -⟩ | ⟨e, -⟩ <;> rw [e]
  rfl

/-- Outside HALTED a recomputed level is the one that R45 gives. -/
theorem State.recomputeLevel_running {s : State} (running : s.fsc.state ≠ .halted) :
    s.recomputeLevel.fsc.level = s.recomputeLevel.runningLevel := by
  rw [State.recomputeLevel_runningLevel, State.recomputeLevel_fsc, State.levelOf_eq, if_neg running]

/-! ### The round that ends -/

section
variable {s v a : State} {begun : List Tally}

/-- What `CycleEndFollows` says of the round that ends in a step. -/
def State.RoundEnded (s s' : State) (begun : List Tally) : Prop :=
  (∀ x, s.fsc.tallies.find? (fun y => y.round == s.fsc.round) = some x →
    (x.issued = x.resolved → s'.fsc.lastShort = decide (0 < x.misses ∨ 0 < x.skips) ∧ s'.fsc.level = s'.runningLevel
      ∧ s'.fsc.tallies = s.fsc.tallies.filter (fun y => decide (y.round ≠ s.fsc.round)) ++ begun)
    ∧ (x.issued ≠ x.resolved → s'.fsc.lastShort = s.fsc.lastShort ∧ s'.fsc.level = s.fsc.level
      ∧ s'.fsc.tallies = s.fsc.tallies.map (fun y => if y.round = s.fsc.round then { y with ended := true } else y) ++ begun))
  ∧ (s'.fsc.level ≠ s.fsc.level → s.Told s' 0) ∧ s.NoticeAtMost s'

/-- A state whose rounds have ended in the same way, with the same notices, shows the same end. -/
theorem State.roundEnded_of_endRound (v_fsc : v.fsc = { s.fsc with state := v.fsc.state }) (lcp : v.lcp = s.lcp) (rqu : v.rqu = s.rqu)
    (start : v.ready = none) (running : v.fsc.state ≠ .halted) (frame : NoticeFrame v.endRound a)
    (tallies : a.fsc.tallies = v.endRound.fsc.tallies ++ begun) (short : a.fsc.lastShort = v.endRound.fsc.lastShort)
    (level : a.fsc.level = v.endRound.fsc.level) (hcu : a.hcu = v.endRound.hcu) (tst : a.tst = v.endRound.tst) :
    s.RoundEnded (a.settled.setReady s.ready) begun := by
  have settled := ChoiceFrame.settled a
  have fsc : (a.settled.setReady s.ready).fsc = a.fsc := settled.fsc
  have whole : NoticeFrame v a := (NoticeFrame.endRound v).trans frame
  have sameLevel : v.fsc.level = s.fsc.level := by rw [v_fsc]
  have round : v.fsc.round = s.fsc.round := by rw [v_fsc]
  have short' : v.fsc.lastShort = s.fsc.lastShort := by rw [v_fsc]
  have books : v.fsc.tallies = s.fsc.tallies := by rw [v_fsc]
  have shown : (a.settled.setReady s.ready).runningLevel = v.endRound.runningLevel :=
    State.runningLevel_congr (by rw [fsc, short]) (by rw [State.setReady_tst, settled.tst, tst])
      fun h => by rw [State.head, State.setReady_hcu, settled.hcu, hcu]; rfl
  refine ⟨fun x found => ?_, fun changed => whole.told start lcp (whole.level ?_) _, whole.noticeAtMost start lcp rqu _⟩
  · rw [← books, ← round] at found
    rw [fsc, tallies, short, level, shown]
    refine ⟨fun all => ?_, fun some => ?_⟩
    · rw [v.endRound_resolved found all, ← State.recomputeLevel_running (by exact running), State.recomputeLevel_fsc]
      have others : (fun y : Tally => y.round != v.fsc.round) = fun y => decide (y.round ≠ s.fsc.round) := by
        funext y
        rw [round, bne, Bool.beq_eq_decide_eq, decide_not]
      refine ⟨rfl, rfl, ?_⟩
      rw [← others, ← books]
      rfl
    · rw [v.endRound_unresolved found some]
      refine ⟨short', sameLevel, ?_⟩
      rw [← books, ← round]
      rfl
  · rwa [fsc, ← sameLevel] at changed

end

/-! ### The END of a cycle -/

section
variable {s : State}

theorem State.endCycle_running (running : s.fsc.state = .running) :
    s.endCycle = (s.setTime s.cycleEndTime).nextCycle s.cycleEndTime := by
  rw [State.endCycle, running]

theorem State.endCycle_stopping (stopping : s.fsc.state = .stopping) :
    s.endCycle = ((s.setTime s.cycleEndTime).setFsc { s.fsc with state := .stopped }).endRound := by
  rw [State.endCycle, stopping]

section
variable {roundLength : Nat} (loaded : s.tst.header = some roundLength) (t : PartTime)
include loaded

theorem State.nextCycle_advances (more : (s.fsc.cycleCount + 1) % roundLength ≠ 0) :
    s.nextCycle t = s.beginCycle ((s.fsc.cycleCount + 1) % roundLength) t := by
  rw [State.nextCycle, loaded]
  exact if_neg more

theorem State.nextCycle_wraps (wraps : (s.fsc.cycleCount + 1) % roundLength = 0) :
    s.nextCycle t = s.endRound.beginRound.beginCycle 0 t := by
  rw [State.nextCycle, loaded, Option.getD_some, wraps]
  exact if_pos rfl

end
end

/-- A new round and a first cycle claim nothing. -/
theorem NoticeFrame.beginCycle (s : State) (count : Nat) (t : PartTime) : NoticeFrame s (s.beginRound.beginCycle count t) :=
  of_quiet rfl rfl rfl rfl

/-- Settles O38: the END of the list is the first one (`finIndex_eq`); what the ending round leaves is `State.roundEnded_of_endRound`, and
the rest is untouched by it (`TallyFrame.endRound`) and by the choice that ends the step. -/
theorem cycleEndFollows : Obligations.CycleEndFollows := by
  intro s n offset roundLength rst hn atEnd before loaded t count roundEnded
  have time : (s.setReady none).cycleEndTime = t := by
    change later s.fsc.cycleStart (s.entry s.finIndex).offset = t
    rw [s.finIndex_eq hn atEnd before, atEnd]
    rfl
  have stepped : exec .cycleEnd s = .next ((s.setReady none).endCycle.settled.setReady s.ready) :=
    congrArg _ (actingTimed_of_rstHigh rst State.endCycle)
  have nextBegins (running : s.fsc.state = .running) : (s.setReady none).endCycle = (s.begun t).nextCycle t := by
    rw [State.endCycle_running (s := s.setReady none) running, time]
    rfl
  have ended (v : State) := TallyFrame.endRound v
  rw [stepped]
  refine ⟨fun running more => ?_, fun running wraps => ?_, fun stopping => ?_⟩
  · rw [nextBegins running, State.nextCycle_advances (s := s.begun t) loaded t more]
    rfl
  · rw [nextBegins running, State.nextCycle_wraps (s := s.begun t) loaded t wraps]
    have frame := ended (s.begun t)
    have quiet := NoticeFrame.beginCycle (s.begun t).endRound 0 t
    have choice := ChoiceFrame.settled ((s.begun t).endRound.beginRound.beginCycle 0 t)
    have fsc := choice.fsc
    have serial : (s.begun t).endRound.fsc.round = s.fsc.round := frame.round
    have begun : (s.begun t).endRound.beginRound.fsc.tallies
        = (s.begun t).endRound.fsc.tallies ++ [⟨s.fsc.round + 1, 0, 0, 0, 0, false⟩] := by
      rw [← serial]
      rfl
    refine ⟨_, rfl, choice.partTime.trans frame.partTime, (congrArg Fsc.state fsc).trans (frame.state.trans running),
      congrArg Fsc.cycleCount fsc, congrArg Fsc.cycleStart fsc, congrArg Fsc.place fsc,
      (congrArg Fsc.round fsc).trans (congrArg (· + 1) serial),
      (congrArg (fun x => x.tallies.getLast?) fsc).trans ((congrArg List.getLast? begun).trans List.getLast?_concat), ?_,
      (congrArg Fsc.records fsc).trans frame.records, (congrArg Fsc.seqs fsc).trans frame.seqs,
      (congrArg Hlp.queue choice.hlp).trans (congrArg (fun x : Hlp => x.queue ++ [cycleMark 0 t]) frame.hlp), choice.hcu.trans frame.hcu,
      choice.mtr.trans frame.mtr, choice.rsq.trans frame.rsq, choice.wmb.trans frame.wmb,
      (((NoticeFrame.endRound _).trans quiet).settled_cmu rfl).trans frame.cmu, choice.tst.trans frame.tst⟩
    exact State.roundEnded_of_endRound (v := s.begun t) rfl rfl rfl rfl (fun halted => nomatch running.symm.trans halted) quiet begun
      rfl rfl rfl rfl
  · have stops : (s.setReady none).endCycle = ((s.begun t).setFsc { s.fsc with state := .stopped }).endRound := by
      rw [State.endCycle_stopping (s := s.setReady none) stopping, time]
      rfl
    rw [stops]
    have frame := ended ((s.begun t).setFsc { s.fsc with state := .stopped })
    have choice := ChoiceFrame.settled (((s.begun t).setFsc { s.fsc with state := .stopped }).endRound)
    have fsc := choice.fsc
    refine ⟨_, rfl, choice.partTime.trans frame.partTime, (congrArg Fsc.state fsc).trans frame.state,
      (congrArg Fsc.cycleCount fsc).trans frame.cycleCount, ?_, (congrArg Fsc.records fsc).trans frame.records,
      (congrArg Fsc.seqs fsc).trans frame.seqs, choice.hlp.trans frame.hlp, choice.hcu.trans frame.hcu, choice.mtr.trans frame.mtr,
      choice.rsq.trans frame.rsq, choice.wmb.trans frame.wmb, ((NoticeFrame.endRound _).settled_cmu rfl).trans frame.cmu,
      choice.tst.trans frame.tst⟩
    exact State.roundEnded_of_endRound (v := (s.begun t).setFsc { s.fsc with state := .stopped }) rfl rfl rfl rfl nofun (.refl _)
      (List.append_nil _).symm rfl rfl rfl rfl

end Sys2Proof.Machine
end

section
/-! PROOFS. What a miss and a reply do to a head, what a completed calibration does, and what a resolved fire does to its round (R38, R39,
R43 to R45, R50 to R54, R62). -/

namespace Sys2Proof.Machine

/-! ### The miss count and the LOST state (R50 to R52) -/

theorem State.setHead_setHead (s : State) (h : Fin 8) (r r' : HeadRecord) : (s.setHead h r).setHead h r' = s.setHead h r' := by
  simp [State.setHead, State.setHcu, Vector.set_set]

section
variable {s : State} {h : Fin 8}

/-- A head whose count leaves its state alone stays as it is. -/
theorem State.judgeMiss_kept (lost : (s.head h).state = .active → (s.head h).miss ≠ 7)
    (back : (s.head h).state = .lost → (s.head h).miss ≠ 0) :
    s.judgeMiss h = s := by
  unfold State.judgeMiss
  split
  · rfl
  · rename_i active
    exact if_neg (lost active)
  · rename_i away
    exact if_neg (back away)

/-- An ACTIVE head whose count reaches 7 becomes LOST (R51). -/
def State.loses (s : State) (h : Fin 8) : Prop :=
  (s.head h).state = .active ∧ 6 ≤ (s.head h).miss

/-- A LOST head whose count reaches 0 becomes ACTIVE (R51). -/
abbrev State.regains (s : State) (h : Fin 8) : Prop :=
  (s.head h).state = .lost ∧ (s.head h).miss = 1

theorem State.missed_lost (lost : s.loses h) :
    s.missed h =
      ((s.setHead h { s.head h with state := .lost, miss := min 7 ((s.head h).miss + 1) }).raiseHeadLost).degradeAll.recomputeLevel := by
  obtain ⟨active, six⟩ := lost
  have seven : min 7 ((s.head h).miss + 1) = 7 := by omega
  rw [State.missed, State.judgeMiss, State.setHead_head, satSucc, seven]
  simp only [active, if_true, State.setHead_setHead]

theorem State.missed_kept (kept : ¬ s.loses h) : s.missed h = s.setHead h { s.head h with miss := min 7 ((s.head h).miss + 1) } := by
  refine State.judgeMiss_kept ?_ ?_ <;> simp only [State.setHead_head, satSucc]
  · intro active full
    exact kept ⟨active, by omega⟩
  · omega

theorem State.replied_back (back : s.regains h) :
    s.replied h = ((s.setHead h { s.head h with state := .active, miss := (s.head h).miss - 1 }).raiseHeadBack).recomputeLevel := by
  obtain ⟨lost, one⟩ := back
  rw [State.replied, State.judgeMiss, State.setHead_head]
  simp only [lost, one, if_true, State.setHead_setHead]

theorem State.replied_kept (law : s.HeadLawful h) (kept : ¬ s.regains h) :
    s.replied h = s.setHead h { s.head h with miss := (s.head h).miss - 1 } := by
  obtain ⟨-, most, active, lost, -, -⟩ := law
  refine State.judgeMiss_kept ?_ ?_ <;> simp only [State.setHead_head]
  · intro _
    omega
  · intro away none
    have := lost away
    exact kept ⟨away, by omega⟩

end

/-! ### The request and the pointer (R62) -/

section
variable {s : State} {h : Fin 8}

theorem headAt_add (h : Fin 8) (i : Nat) (hi : i < 8) : headAt (h.val + 1 + i) = h + 1 + ⟨i, hi⟩ := by
  apply Fin.ext
  simp only [headAt, Fin.ofNat, Fin.val_add]
  omega

/-- The pointer moves to the first enabled head after the one that was calibrated. -/
theorem State.pointerAfter_first {i : Fin 8} (on : s.enabled (h + 1 + i) = true)
    (off : ∀ j : Fin 8, j < i → s.enabled (h + 1 + j) = false) :
    s.pointerAfter h = h + 1 + i := by
  have found : s.firstEnabled (h.val + 1) = some (h + 1 + i) := by
    rw [State.firstEnabled, List.find?_map, Option.map_eq_some_iff]
    refine ⟨i.val, List.find?_range_eq_some.2 ⟨?_, List.mem_range.2 i.isLt, fun j hj => ?_⟩, headAt_add h i.val i.isLt⟩
    · simpa [headAt_add h i.val i.isLt] using on
    · have hj8 : j < 8 := hj.trans i.isLt
      simpa [headAt_add h j hj8] using off ⟨j, hj8⟩ hj
  rw [State.pointerAfter, found, Option.getD_some]

/-- With no head enabled it moves to the next one. -/
theorem State.pointerAfter_none (off : ∀ j, s.enabled j = false) : s.pointerAfter h = h + 1 := by
  have found : s.firstEnabled (h.val + 1) = none := by
    simp [State.firstEnabled, off]
  rw [State.pointerAfter, found, Option.getD_none]
  exact (headAt_add h 0 (by decide)).trans (Fin.add_zero _)

theorem State.pointerAfter_congr {s' : State} (table : s'.tst.heads = s.tst.heads) : s'.pointerAfter h = s.pointerAfter h := by
  have enabled : s'.enabled = s.enabled := funext fun j => by simp only [State.enabled, State.headEntry, table]
  rw [State.pointerAfter, State.firstEnabled, enabled]
  rfl

theorem State.releaseRequest_named (named : s.hcu.request = some h) :
    s.releaseRequest h = s.setHcu { s.hcu with request := none, pointer := s.pointerAfter h } :=
  if_pos named

theorem State.releaseRequest_other (other : s.hcu.request ≠ some h) : s.releaseRequest h = s :=
  if_neg other

theorem State.releaseRequest_mtr (s : State) (h : Fin 8) : (s.releaseRequest h).mtr = s.mtr := by
  unfold State.releaseRequest
  split_ifs <;> rfl

/-- What R62 says of the request and the pointer when the calibration of a head completes: the pointer is judged in `s`. -/
structure State.RequestReleased (s s' : State) (h : Fin 8) : Prop where
  other   : s.hcu.request ≠ some h → s'.hcu.request = s.hcu.request ∧ s'.hcu.pointer = s.hcu.pointer
  cleared : s.hcu.request = some h → s'.hcu.request = none
  moved   : s.hcu.request = some h → s'.hcu.pointer = s.pointerAfter h

theorem State.releaseRequest_released (s : State) (h : Fin 8) : s.RequestReleased (s.releaseRequest h) h where
  other := fun n => by rw [State.releaseRequest_other n]; exact ⟨rfl, rfl⟩
  cleared := fun e => by rw [State.releaseRequest_named e]; rfl
  moved := fun e => by rw [State.releaseRequest_named e]; rfl

theorem State.RequestReleased.congr {a b s' : State} (r : b.RequestReleased s' h) (table : b.tst.heads = a.tst.heads)
    (request : b.hcu.request = a.hcu.request) (pointer : b.hcu.pointer = a.hcu.pointer) : a.RequestReleased s' h where
  other := fun n => by rw [← request, ← pointer]; exact r.other (request ▸ n)
  cleared := fun e => r.cleared (request.trans e)
  moved := fun e => (r.moved (request.trans e)).trans (State.pointerAfter_congr table)

end

/-! ### A calibration that completes (R54, R62) -/

section
variable (s : State) (h : Fin 8) (k : Nat) (cal : CalState)

/-- A head's record once an outcome is recorded in it, its health judged by the pattern that the state holds (R54). -/
def HeadRecord.recorded (s : State) (r : HeadRecord) (good : Bool) : HeadRecord :=
  { r with history := shiftOutcome r.history good, usable := s.healthOf (shiftOutcome r.history good) }

theorem State.recordOutcome_record (j : Fin 8) (good : Bool) :
    (s.recordOutcome h good).head j = if j = h then (s.head h).recorded s good else s.head j :=
  State.recordOutcome_head s h j good

/-- The completed calibration before the notice that it may raise. -/
def State.calibrated : State :=
  ((s.setHead h { s.head h with k := k, cal := cal }).recordOutcome h (cal != .failed)).releaseRequest h

theorem State.completeCalibration_eq :
    s.completeCalibration h k cal = if cal = .clamped then (s.calibrated h k cal).raiseCalClamped else s.calibrated h k cal :=
  rfl

theorem State.completeCalibration_hcu : (s.completeCalibration h k cal).hcu = (s.calibrated h k cal).hcu := by
  rw [State.completeCalibration_eq]
  split_ifs <;> rfl

theorem State.completeCalibration_mtr : (s.completeCalibration h k cal).mtr = s.mtr := by
  have same : (s.calibrated h k cal).mtr = s.mtr := State.releaseRequest_mtr _ h
  rw [State.completeCalibration_eq]
  split_ifs <;> exact same

theorem State.completeCalibration_head (j : Fin 8) :
    (s.completeCalibration h k cal).head j =
      if j = h then ({ s.head h with k := k, cal := cal } : HeadRecord).recorded s (cal != .failed) else s.head j := by
  rw [State.head, State.completeCalibration_hcu]
  change (State.calibrated s h k cal).head j = _
  rw [State.calibrated, State.releaseRequest_head, State.recordOutcome_record, State.setHead_head, State.setHead_head_ite]
  split_ifs <;> rfl

theorem State.completeCalibration_released : s.RequestReleased (s.completeCalibration h k cal) h := by
  have released : s.RequestReleased (s.calibrated h k cal) h := (State.releaseRequest_released _ h).congr rfl rfl rfl
  constructor <;> rw [State.completeCalibration_hcu]
  · exact released.other
  · exact released.cleared
  · exact released.moved

end

/-! ### The level through a head's duties (R45) -/

theorem State.levelOf_of_states {s s' : State} (state : s'.fsc.state = s.fsc.state) (short : s'.fsc.lastShort = s.fsc.lastShort)
    (table : s'.tst = s.tst) (heads : ∀ h, (s'.head h).state = (s.head h).state) : s'.levelOf = s.levelOf :=
  State.levelOf_congr (by rw [state]) short (by rw [table]) heads

/-! ### A fire that resolves in its round (R43, R44) -/

section
variable {s : State} {round : Nat} {isMiss : Bool}

/-- A tally is that of a round, which has ended with one fire to resolve. -/
def State.lastOf (s : State) (round : Nat) (x : Tally) : Prop :=
  s.fsc.tallies.find? (fun y => y.round == round) = some x ∧ x.ended = true ∧ x.issued = x.resolved + 1

theorem State.find?_resolve {x : Tally} (found : s.fsc.tallies.find? (fun y => y.round == round) = some x) :
    (s.modTally round (Tally.resolve isMiss)).fsc.tallies.find? (fun y => y.round == round) = some (x.resolve isMiss) := by
  have same : ((fun y : Tally => y.round == round) ∘ fun y => if y.round = round then y.resolve isMiss else y)
      = fun y => y.round == round := by
    funext y
    simp only [Function.comp]
    split <;> rfl
  have at_round : x.round = round := by simpa using List.find?_some found
  simp only [State.modTally, State.setFsc, List.find?_map, same, found]
  simp [at_round]

theorem State.find?_resolve_none (unheld : s.fsc.tallies.find? (fun y => y.round == round) = none) :
    (s.modTally round (Tally.resolve isMiss)).fsc.tallies.find? (fun y => y.round == round) = none := by
  rw [List.find?_eq_none] at unheld ⊢
  intro y mem
  obtain ⟨z, held, rfl⟩ := List.mem_map.1 mem
  have := unheld z held
  split_ifs with e
  · simp [e] at this
  · exact this

/-- The last fire of an ended round discards the tally, which gives the last result and the level (R44, R45). -/
theorem State.tallyResolved_last {x : Tally} (last : s.lastOf round x) :
    (s.tallyResolved round isMiss).fsc.lastShort = decide (0 < (x.resolve isMiss).misses ∨ 0 < x.skips)
      ∧ (∀ y ∈ (s.tallyResolved round isMiss).fsc.tallies, y.round ≠ round)
      ∧ (s.tallyResolved round isMiss).fsc.level = (s.tallyResolved round isMiss).levelOf := by
  obtain ⟨found, ended, all⟩ := last
  have resolves : (x.resolve isMiss).ended = true ∧ (x.resolve isMiss).resolved = (x.resolve isMiss).issued := ⟨ended, all.symm⟩
  rw [State.tallyResolved_eq, State.resolveRound, State.find?_resolve found]
  dsimp only
  rw [if_pos resolves]
  refine ⟨?_, ?_, State.recomputeLevel_level _⟩
  · rw [State.recomputeLevel_fsc]
    rfl
  · rw [State.recomputeLevel_fsc]
    intro y mem
    have := (List.mem_filter.1 mem).2
    simpa using this

/-- Any other fire counts in the tally of its round, and nothing else changes (R43). -/
theorem State.tallyResolved_open (not_last : ∀ x, ¬ s.lastOf round x) :
    s.tallyResolved round isMiss = s.modTally round (Tally.resolve isMiss) := by
  rw [State.tallyResolved_eq, State.resolveRound]
  cases found : s.fsc.tallies.find? (fun y => y.round == round) with
  | none => rw [State.find?_resolve_none found]
  | some x =>
    rw [State.find?_resolve found]
    exact if_neg fun resolves => not_last x ⟨found, resolves.1, resolves.2.symm⟩

/-- What the books of a state show once a fire of one of its rounds has resolved (R43, R44). -/
theorem State.tallyResolved_books {m : State} (tallies : m.fsc.tallies = s.fsc.tallies) (short : m.fsc.lastShort = s.fsc.lastShort) :
    (∀ x, s.lastOf round x → (m.tallyResolved round isMiss).fsc.lastShort = decide (0 < (x.resolve isMiss).misses ∨ 0 < x.skips)
      ∧ ∀ y ∈ (m.tallyResolved round isMiss).fsc.tallies, y.round ≠ round)
    ∧ ((∀ x, ¬ s.lastOf round x) → (m.tallyResolved round isMiss).fsc.lastShort = s.fsc.lastShort
      ∧ (m.tallyResolved round isMiss).fsc.tallies = s.fsc.tallies.map fun y => if y.round = round then y.resolve isMiss else y) := by
  have same : m.lastOf round = s.lastOf round := by
    funext x
    rw [State.lastOf, tallies]
    rfl
  rw [← same]
  refine ⟨fun x last => ?_, fun not_last => ?_⟩
  · obtain ⟨result, others, -⟩ := State.tallyResolved_last (isMiss := isMiss) last
    exact ⟨result, others⟩
  · rw [State.tallyResolved_open not_last, ← short, ← tallies]
    exact ⟨rfl, rfl⟩

/-- The level after a fire has resolved: recomputed by its head when the head has moved between ACTIVE and LOST, or by its round when that
is over, and as it was otherwise (R45). -/
theorem State.tallyResolved_level {m : State} {moved : Prop} (tallies : m.fsc.tallies = s.fsc.tallies)
    (recomputed : moved → m.fsc.level = m.levelOf) (kept : ¬ moved → m.fsc.level = s.fsc.level) :
    ((moved ∨ ∃ x, s.lastOf round x) → (m.tallyResolved round isMiss).fsc.level = (m.tallyResolved round isMiss).levelOf)
    ∧ (¬ moved → (∀ x, ¬ s.lastOf round x) → (m.tallyResolved round isMiss).fsc.level = s.fsc.level) := by
  have same : m.lastOf round = s.lastOf round := by
    funext x
    rw [State.lastOf, tallies]
    rfl
  rw [← same]
  refine ⟨fun either => ?_, fun still not_last => ?_⟩
  · by_cases last : ∃ x, m.lastOf round x
    · obtain ⟨x, last⟩ := last
      exact (State.tallyResolved_last last).2.2
    · rw [State.tallyResolved_open (not_exists.1 last)]
      exact recomputed (either.resolve_right last)
  · rw [State.tallyResolved_open not_last]
    exact kept still

end

end Sys2Proof.Machine
end

section
/-! PROOFS. The reply window that runs out (R39). -/

namespace Sys2Proof.Machine

/-! ### What a miss leaves (R39, R50 to R54) -/

theorem State.recomputeLevel_mtr (s : State) : s.recomputeLevel.mtr = s.mtr := by
  rcases s.recomputeLevel_eq with ⟨e, -⟩ | ⟨e, -⟩ <;> rw [e]
  rfl

section
variable (s : State) (h : Fin 8)

theorem State.judgeMiss_hcu : (s.judgeMiss h).hcu = { s.hcu with heads := (s.judgeMiss h).hcu.heads } := by
  unfold State.judgeMiss
  split
  · rfl
  all_goals
    split_ifs
    · rw [State.recomputeLevel_hcu]
      rfl
    · rfl

theorem State.missed_hcu : (s.missed h).hcu = { s.hcu with heads := (s.missed h).hcu.heads } :=
  State.judgeMiss_hcu _ h

theorem CompletionFrame.missed : CompletionFrame s (s.missed h) :=
  (CompletionFrame.setHead s h _).trans (.judgeMiss _ h)

theorem State.missed_head : (s.missed h).head h
    = { s.head h with miss := min 7 ((s.head h).miss + 1), state := followMiss (s.head h).state (min 7 ((s.head h).miss + 1)) } := by
  rw [State.missed, State.judgeMiss_head, if_pos rfl, State.setHead_head]
  rfl

/-- The calibration state after a miss of a fire of a kind (R62). -/
def FireKind.missedCal (kind : FireKind) (cal : CalState) : CalState :=
  match kind with
  | .measure => cal
  | .calibrate => .failed

theorem State.recordMiss_head (kind : FireKind) (j : Fin 8) :
    (s.recordMiss h kind).head j =
      if j = h then ({ (s.missed h).head h with cal := kind.missedCal ((s.missed h).head h).cal } : HeadRecord).recorded s false
      else s.head j := by
  have table : (s.missed h).healthOf = s.healthOf := by
    funext x
    rw [State.healthOf, State.pattern, (CompletionFrame.missed s h).tst]
    rfl
  cases kind with
  | measure =>
    rw [State.recordMiss, State.recordOutcome_record, HeadRecord.recorded, table]
    split_ifs with e
    · rfl
    · exact s.missed_other e
  | calibrate =>
    rw [State.recordMiss, State.calibrationMiss, State.completeCalibration_head, HeadRecord.recorded, table]
    split_ifs with e
    · rfl
    · exact s.missed_other e

theorem State.recordMiss_calibrate :
    s.recordMiss h .calibrate = (s.missed h).completeCalibration h ((s.missed h).head h).k .failed :=
  rfl

/-- The record of the head whose fire was missed. -/
theorem State.recordMiss_record (kind : FireKind) :
    (s.recordMiss h kind).head h =
      ⟨followMiss (s.head h).state (min 7 ((s.head h).miss + 1)), min 7 ((s.head h).miss + 1), (s.head h).history <<< 1,
        s.pattern.getLsbD ((s.head h).history <<< 1).toNat, (s.head h).k, kind.missedCal (s.head h).cal⟩ := by
  have shifted : shiftOutcome (s.head h).history false = (s.head h).history <<< 1 := BitVec.or_zero
  rw [State.recordMiss_head, if_pos rfl, State.missed_head, HeadRecord.recorded, State.healthOf, shifted]

theorem State.recordMiss_mtr (kind : FireKind) : (s.recordMiss h kind).mtr = (s.missed h).mtr := by
  cases kind with
  | measure => rfl
  | calibrate => exact State.completeCalibration_mtr _ h _ _

theorem State.recordMiss_measure_hcu :
    (s.recordMiss h .measure).hcu.request = s.hcu.request ∧ (s.recordMiss h .measure).hcu.pointer = s.hcu.pointer := by
  change (s.missed h).hcu.request = _ ∧ (s.missed h).hcu.pointer = _
  rw [State.missed_hcu]
  exact ⟨rfl, rfl⟩

theorem State.recordMiss_calibrate_released : s.RequestReleased (s.recordMiss h .calibrate) h := by
  rw [State.recordMiss_calibrate]
  exact ((s.missed h).completeCalibration_released h _ _).congr (by rw [(CompletionFrame.missed s h).tst]) (by rw [State.missed_hcu])
    (by rw [State.missed_hcu])

theorem CompletionFrame.recordMiss (kind : FireKind) : CompletionFrame s (s.recordMiss h kind) := by
  cases kind with
  | measure => exact (missed s h).trans (recordOutcome _ h _)
  | calibrate => exact (missed s h).trans (completeCalibration _ h ((s.missed h).head h).k .failed)

end

section
variable {s : State} {h : Fin 8} {kind : FireKind}

theorem followMiss_of_loses (lost : s.loses h) : followMiss (s.head h).state (min 7 ((s.head h).miss + 1)) = .lost := by
  obtain ⟨active, six⟩ := lost
  rw [active, followMiss, if_pos (by omega)]

theorem followMiss_of_kept (kept : ¬ s.loses h) : followMiss (s.head h).state (min 7 ((s.head h).miss + 1)) = (s.head h).state := by
  rw [State.loses] at kept
  cases state : (s.head h).state with
  | disabled => rfl
  | active => exact if_neg fun full => kept ⟨state, by omega⟩
  | lost => exact if_neg (by omega)

/-- The level of a head that becomes LOST is recomputed in it; any other miss leaves the level (R45). -/
theorem State.recordMiss_level_lost (lost : s.loses h) : (s.recordMiss h kind).fsc.level = (s.recordMiss h kind).levelOf := by
  have judged : (s.missed h).fsc.level = (s.missed h).levelOf := by
    rw [State.missed_lost lost]
    exact State.recomputeLevel_level _
  have fsc : (s.recordMiss h kind).fsc = (s.missed h).fsc := by
    cases kind with
    | measure => rfl
    | calibrate => exact State.completeCalibration_fsc _ h _ _
  have tst : (s.recordMiss h kind).tst = (s.missed h).tst := by
    rw [(CompletionFrame.recordMiss s h kind).tst, (CompletionFrame.missed s h).tst]
  rw [fsc, judged]
  refine (State.levelOf_of_states (by rw [fsc]) (by rw [fsc]) tst fun j => ?_).symm
  rw [State.recordMiss_head]
  split_ifs with e
  · rw [e]
    rfl
  · rw [s.missed_other e]

theorem State.recordMiss_level_kept (kept : ¬ s.loses h) : (s.recordMiss h kind).fsc.level = s.fsc.level := by
  rw [State.recordMiss_fsc, State.missed_kept kept]
  rfl

theorem State.recordMiss_raised (lost : s.loses h) : s.Raised (s.recordMiss h kind) 1 := by
  have raised : s.Raised (s.missed h) 1 := by
    rw [State.missed_lost lost]
    exact (NoticeFrame.becomeLost s h _).2
  cases kind with
  | measure => exact NoticeFrame.raised_after raised (.recordOutcome _ h _)
  | calibrate => exact NoticeFrame.raised_after raised (.completeCalibration _ h ((s.missed h).head h).k .failed)

theorem State.recordMiss_mtr_lost (lost : s.loses h) : (s.recordMiss h kind).mtr = s.degradeAll.mtr := by
  rw [State.recordMiss_mtr, State.missed_lost lost, State.recomputeLevel_mtr]
  rfl

theorem State.recordMiss_mtr_kept (kept : ¬ s.loses h) : (s.recordMiss h kind).mtr = s.mtr := by
  rw [State.recordMiss_mtr, State.missed_kept kept]
  rfl

end

/-! ### The whole step -/

/-- What a step's end leaves of the heads, the fires and the contexts. -/
theorem ChoiceFrame.head {a b : State} (choice : ChoiceFrame a b) (j : Fin 8) : b.head j = a.head j := by
  rw [State.head, State.head, choice.hcu]

theorem ChoiceFrame.fire {a b : State} (choice : ChoiceFrame a b) (j : Fin 8) : b.fire j = a.fire j := by
  rw [State.fire, State.fire, choice.fsc]

theorem ChoiceFrame.ctx {a b : State} (choice : ChoiceFrame a b) (i : Fin 2) : b.ctx i = a.ctx i := by
  rw [State.ctx, State.ctx, choice.mtr]

/-- A level that the event has recomputed is the one that R45 gives of the state that the step leaves. -/
theorem ChoiceFrame.levelOf {s a : State} (choice : ChoiceFrame a a.settled) (state : a.fsc.state = s.fsc.state) (ready : Option Claimant) :
    a.levelOf = if s.fsc.state = .halted then .config else (a.settled.setReady ready).runningLevel := by
  have shown : (a.settled.setReady ready).runningLevel = a.runningLevel :=
    State.runningLevel_congr (congrArg Fsc.lastShort choice.fsc) (congrArg Tst.heads choice.tst) fun j =>
      congrArg HeadRecord.state (choice.head j)
  rw [State.levelOf_eq, state, shown]

theorem State.windowExpiry_outstanding {s : State} {h : Fin 8} {seq : Byte} {kind : FireKind} {expiry : PartTime} {round : Nat}
    (awaited : s.fire h = .outstanding seq kind expiry round) :
    s.windowExpiry h = (((s.setTime expiry).setFire h (.expired seq kind)).recordMiss h kind).tallyResolved round true := by
  rw [State.windowExpiry, awaited]

/-- Settles O41: the miss (`State.recordMiss`) and then its round (`State.tallyResolved`), which leaves the heads
(`TallyFrame.tallyResolved`). -/
theorem windowExpiryMisses : Obligations.WindowExpiryMisses := by
  intro s h seq kind expiry round rst awaited becomesLost resolves
  let x := ((s.setReady none).setTime expiry).setFire h (.expired seq kind)
  let m := x.recordMiss h kind
  let a := m.tallyResolved round true
  have stepped : exec (.replyWindowExpiry h) s = .next (a.settled.setReady s.ready) := by
    refine congrArg _ ((actingTimed_of_rstHigh rst fun s => s.windowExpiry h).trans ?_)
    rw [State.windowExpiry_outstanding (s := s.setReady none) awaited]
  have choice := ChoiceFrame.settled a
  have tally : TallyFrame m a := .tallyResolved m round true
  have miss : CompletionFrame x m := .recordMiss x h kind
  have notice : NoticeFrame (s.setReady none) a :=
    ((NoticeFrame.of_quiet rfl rfl rfl rfl : NoticeFrame (s.setReady none) x).trans (.recordMiss x h kind)).trans
      (.tallyResolved m round true)
  have hcu : a.settled.hcu = m.hcu := choice.hcu.trans tally.hcu
  have mtr : a.settled.mtr = m.mtr := choice.mtr.trans tally.mtr
  have fsc : a.settled.fsc = a.fsc := choice.fsc
  have head (j : Fin 8) : a.settled.head j = m.head j := (choice.head j).trans (by rw [State.head, tally.hcu]; rfl)
  have fire (j : Fin 8) : a.settled.fire j = x.fire j := (choice.fire j).trans (State.fire_congr (tally.records.trans miss.records) j)
  have record : (a.settled.setReady s.ready).head h = ⟨followMiss (s.head h).state (min 7 ((s.head h).miss + 1)),
      min 7 ((s.head h).miss + 1), (s.head h).history <<< 1, s.pattern.getLsbD ((s.head h).history <<< 1).toNat, (s.head h).k,
      kind.missedCal (s.head h).cal⟩ :=
    (head h).trans (State.recordMiss_record x h kind)
  have mfsc := State.recordMiss_level x h kind
  have books := State.tallyResolved_books (s := s) (m := m) (round := round) (isMiss := true) (by rw [mfsc]; rfl) (by rw [mfsc]; rfl)
  have level := State.tallyResolved_level (s := s) (m := m) (round := round) (isMiss := true) (moved := s.loses h) (by rw [mfsc]; rfl)
    (fun lost => State.recordMiss_level_lost (s := x) lost) (fun kept => State.recordMiss_level_kept (s := x) kept)
  refine ⟨_, stepped, choice.partTime.trans (tally.partTime.trans miss.partTime), (fire h).trans (State.setFire_fire _ _ _),
    fun j n => (fire j).trans (State.setFire_fire_other _ _ n), by rw [record], by rw [record], by rw [record], by rw [record],
    by rw [record]; cases kind <;> rfl, fun j n => (head j).trans ((x.recordMiss_head h kind j).trans (if_neg n)),
    (congrArg Hcu.timer hcu).trans miss.timer, ?unnamed, ?named, ?lost, ?kept, ?resolved, ?unresolved, ?recomputed, ?unmoved, ?told,
    notice.noticeAtMost rfl rfl rfl _, choice.rsq.trans (tally.rsq.trans miss.rsq), choice.wmb.trans (tally.wmb.trans miss.wmb),
    (notice.settled_entries rfl).trans (tally.entries.trans miss.entries), choice.hlp.trans (tally.hlp.trans miss.hlp),
    (notice.settled_cmu rfl).trans (tally.cmu.trans miss.cmu), choice.tst.trans (tally.tst.trans miss.tst),
    (congrArg Fsc.seqs fsc).trans (tally.seqs.trans miss.seqs), (congrArg Fsc.state fsc).trans (tally.state.trans miss.state)⟩
  case unnamed =>
    intro unnamed
    change a.settled.hcu.request = _ ∧ a.settled.hcu.pointer = _
    rw [hcu]
    cases kind with
    | measure => exact State.recordMiss_measure_hcu x h
    | calibrate => exact (State.recordMiss_calibrate_released x h).other (unnamed.resolve_left nofun)
  case named =>
    intro calibrates requested
    subst calibrates
    have released := State.recordMiss_calibrate_released x h
    change a.settled.hcu.request = _ ∧ (∀ i, _ → _ → a.settled.hcu.pointer = _) ∧ (_ → a.settled.hcu.pointer = _)
    rw [hcu, released.moved requested]
    exact ⟨released.cleared requested, fun i on off => State.pointerAfter_first (s := x) on off, State.pointerAfter_none (s := x)⟩
  case lost =>
    intro lost
    have degraded : m.mtr = x.degradeAll.mtr := State.recordMiss_mtr_lost (s := x) lost
    refine ⟨by rw [record, followMiss_of_loses lost], notice.told rfl rfl ?_ _, fun i => ?_, ?_⟩
    · exact NoticeFrame.raised_after (State.recordMiss_raised (s := x) lost) (.tallyResolved m round true)
    · refine (choice.ctx i).trans ?_
      rw [State.ctx, tally.mtr, degraded]
      exact State.mapCtx_ctx x _ i
    · change a.settled.mtr = { s.mtr with contexts := a.settled.mtr.contexts }
      rw [mtr, degraded]
      rfl
  case kept =>
    intro kept
    exact ⟨by rw [record, followMiss_of_kept kept], mtr.trans (State.recordMiss_mtr_kept (s := x) kept)⟩
  case resolved =>
    rintro ⟨y, last⟩
    obtain ⟨short, others⟩ := books.1 y last
    change a.settled.fsc.lastShort = true ∧ ∀ y ∈ a.settled.fsc.tallies, y.round ≠ round
    rw [fsc]
    exact ⟨short.trans (by simp [Tally.resolve]), others⟩
  case unresolved =>
    intro open_
    change a.settled.fsc.lastShort = _ ∧ a.settled.fsc.tallies = _
    rw [fsc]
    exact books.2 (not_exists.1 open_)
  case recomputed =>
    intro either
    rw [← choice.levelOf (s := s) (tally.state.trans miss.state)]
    exact (congrArg Fsc.level fsc).trans (level.1 either)
  case unmoved =>
    intro kept open_
    exact (congrArg Fsc.level fsc).trans (level.2 kept (not_exists.1 open_))
  case told =>
    intro differs
    refine notice.told rfl rfl (notice.level fun same => differs ?_) _
    exact (congrArg Fsc.level fsc).trans same

end Sys2Proof.Machine
end

section
/-! PROOFS. What a shot that arrives at RSQ leaves of its head, of the other heads, and of a notice that is ready to be sent (R92 to R126). -/

namespace Sys2Proof.Machine

/-- What the arrival of a shot of head `h` leaves, beyond `ResolutionFrame`: the announcements and the other heads' records; a claimant
that came first stays first, and a pending notice stays pending. -/
structure ShotFrame (h : Fin 8) (s s' : State) : Prop where
  announce : s'.mtr.announce = s.mtr.announce
  others   : ∀ j, j ≠ h → s'.head j = s.head j
  ready    : ∀ c, s.ready = some c → s'.ready = some c
  kept     : ∀ p, s.rqu.notices.pending p = true → s'.rqu.notices.pending p = true

namespace ShotFrame

variable {h : Fin 8}

theorem of_blocks {s s' : State} (announce : s'.mtr.announce = s.mtr.announce) (heads : s'.hcu.heads = s.hcu.heads)
    (ready : s'.ready = s.ready) (notices : s'.rqu.notices = s.rqu.notices) : ShotFrame h s s' :=
  ⟨announce, fun j _ => by rw [State.head, heads]; rfl, fun c e => ready.trans e, fun p e => by rwa [notices]⟩

theorem refl (s : State) : ShotFrame h s s :=
  of_blocks rfl rfl rfl rfl

theorem trans {a b c : State} (x : ShotFrame h a b) (y : ShotFrame h b c) : ShotFrame h a c where
  announce := y.announce.trans x.announce
  others := fun j n => (y.others j n).trans (x.others j n)
  ready := fun c e => y.ready c (x.ready c e)
  kept := fun p e => y.kept p (x.kept p e)

theorem setWmb (s : State) (x : Wmb) : ShotFrame h s (s.setWmb x) :=
  of_blocks rfl rfl rfl rfl

theorem setCtx (s : State) (i : Fin 2) (c : Option ShellContext) : ShotFrame h s (s.setCtx i c) :=
  of_blocks rfl rfl rfl rfl

theorem countReason (s : State) (i : Fin 2) (r : Reason) : ShotFrame h s (s.countReason i r) :=
  setCtx s i _

theorem claim (s : State) (c : Claimant) : ShotFrame h s (s.claim c) where
  announce := rfl
  others := fun _ _ => rfl
  ready := fun c e => by rw [State.claim, State.setReady, e]; rfl
  kept := fun _ e => e

theorem report (s : State) (kind : CaptureKind) (source : CaptureSource) (time : PartTime) (detail : Nat) :
    ShotFrame h s (s.report kind source time detail) := by
  rcases s.report_eq kind source time detail with e | e <;> rw [e]
  · exact of_blocks rfl rfl rfl rfl
  · have raised : s.rqu.notices.Raises { s.rqu.notices with captureHeld := true } 5 := rfl
    exact ⟨rfl, fun _ _ => rfl, (claim (h := h) s .notices).ready, fun p e => raised.kept e⟩

theorem recordOutcome (s : State) (good : Bool) : ShotFrame h s (s.recordOutcome h good) where
  announce := rfl
  others := fun _ n => s.setHead_head_other _ n
  ready := fun _ e => e
  kept := fun _ e => e

theorem offerSegment (s : State) (r : SegmentReport) : ShotFrame h s (s.offerSegment r) := by
  unfold State.offerSegment
  split_ifs
  · exact refl s
  · exact (of_blocks rfl rfl rfl rfl : ShotFrame h s (s.setRqu { s.rqu with entries := s.rqu.entries ++ [.segment r] })).trans (claim _ _)

theorem closeSegment (s : State) (r : OpenSegment) (early : Bool) : ShotFrame h s (s.closeSegment r early) := by
  unfold State.closeSegment
  split
  · exact setWmb s _
  · exact ((setWmb s _).trans (offerSegment _ _)).trans (setCtx _ _ _)

theorem acceptGood (s : State) (p : Placed) (wall : Nat) : ShotFrame h s (s.acceptGood p wall) := by
  unfold State.acceptGood
  split
  · exact refl s
  · dsimp only
    split_ifs
    · exact (setWmb s _).trans (countReason _ _ _)
    · exact countReason s _ _
    · exact (setWmb s _).trans (countReason _ _ _)
    · split
      · exact countReason s _ _
      · split_ifs
        · exact countReason s _ _
        · exact ((closeSegment s _ _).trans (setWmb _ _)).trans (countReason _ _ _)

theorem deliver (s : State) (p : Placed) (e : Evaluation) : ShotFrame h s (s.deliver h p e) := by
  unfold State.deliver
  split
  · split_ifs
    · exact acceptGood s p _
    · exact countReason s _ _
  all_goals exact countReason s _ _

variable (s : State) (x : Shot)

theorem evaluateShot (p : Placed) : ShotFrame x.head s (s.evaluateShot x p) := by
  unfold State.evaluateShot
  split
  · exact refl s
  · split_ifs
    · exact ((setCtx s _ _).trans (recordOutcome _ _)).trans (deliver _ _ _)
    · exact countReason s _ _

theorem discardStale : ShotFrame x.head s (s.discardStale x) := by
  unfold State.discardStale
  split
  · exact refl s
  · exact report s _ _ _ _

theorem resolveShot : ShotFrame x.head s (s.resolveShot x) := by
  unfold State.resolveShot
  split
  · exact discardStale s x
  · split
    · unfold State.resolveBracketed
      split
      · exact refl s
      · exact report s _ _ _ _
      · exact report s _ _ _ _
      · exact evaluateShot s x _
    · exact discardStale s x

theorem shotArrival : ShotFrame x.head s (s.shotArrival x) := by
  unfold State.shotArrival
  split_ifs
  · exact report s _ _ _ _
  · exact discardStale s x
  · exact resolveShot s x
  · exact report s _ _ _ _
  · exact of_blocks rfl rfl rfl rfl

end ShotFrame

/-- Beyond the queue, the arrival of a shot keeps the frame of a resolution (R93, R101). -/
theorem State.shotArrival_resolution (s : State) (x : Shot) : ∃ q, ResolutionFrame (s.setRsq q) (s.shotArrival x) := by
  unfold State.shotArrival
  split_ifs
  · exact ⟨s.rsq, .report s _ _ _ _⟩
  · refine ⟨s.rsq, ?_⟩
    unfold State.discardStale
    split
    · exact .refl s
    · exact .report s _ _ _ _
  · exact ⟨s.rsq, .resolveShot s x⟩
  · exact ⟨s.rsq, .report s _ _ _ _⟩
  · exact ⟨_, .refl _⟩

/-- With no held sample and an empty queue a shot waits (R93). -/
theorem State.shotArrival_waits {s : State} (x : Shot) (samples : s.mtr.history = []) (items : s.rsq.items = []) :
    s.shotArrival x = s.setRsq ⟨[.shot x]⟩ := by
  simp [State.shotArrival, Rsq.holdsDuplicate, Rsq.shots, State.hold, samples, items, beforeOldest, notAfterNewest, insertItem]

end Sys2Proof.Machine
end

section
/-! PROOFS. The report that matches an outstanding fire (R37, R38). -/

namespace Sys2Proof.Machine

/-! ### What a reply leaves of the head (R50, R51) -/

section
variable {s : State} {h : Fin 8}

theorem CompletionFrame.replied (s : State) (h : Fin 8) : CompletionFrame s (s.replied h) :=
  (CompletionFrame.setHead s h _).trans (.judgeMiss _ h)

theorem State.replied_hcu (s : State) (h : Fin 8) : (s.replied h).hcu = { s.hcu with heads := (s.replied h).hcu.heads } :=
  State.judgeMiss_hcu _ h

theorem followMiss_replied (law : s.HeadLawful h) :
    (s.regains h → followMiss (s.head h).state ((s.head h).miss - 1) = .active)
    ∧ (¬ s.regains h → followMiss (s.head h).state ((s.head h).miss - 1) = (s.head h).state) := by
  obtain ⟨-, most, -, lost, -, -⟩ := law
  refine ⟨fun ⟨away, one⟩ => by rw [away, one]; rfl, fun kept => ?_⟩
  rw [State.regains] at kept
  cases state : (s.head h).state with
  | disabled => rfl
  | active => exact if_neg (by omega)
  | lost =>
    have held := lost state
    exact if_neg fun none => kept ⟨state, by omega⟩

/-- The record of the head whose fire was answered: the count falls, and the state follows it. -/
theorem State.replied_head (s : State) (h : Fin 8) : (s.replied h).head h
    = { s.head h with miss := (s.head h).miss - 1, state := followMiss (s.head h).state ((s.head h).miss - 1) } := by
  rw [State.replied, State.judgeMiss_head, if_pos rfl, State.setHead_head]

theorem State.replied_mtr (law : s.HeadLawful h) : (s.replied h).mtr = s.mtr := by
  by_cases back : s.regains h
  · rw [State.replied_back back, State.recomputeLevel_mtr]
    rfl
  · rw [State.replied_kept law back]
    rfl

theorem State.replied_level_back (back : s.regains h) : (s.replied h).fsc.level = (s.replied h).levelOf := by
  rw [State.replied_back back]
  exact State.recomputeLevel_level _

theorem State.replied_level_kept (law : s.HeadLawful h) (kept : ¬ s.regains h) : (s.replied h).fsc.level = s.fsc.level := by
  rw [State.replied_kept law kept]
  rfl

theorem State.replied_raised (back : s.regains h) : s.Raised (s.replied h) 2 := by
  rw [State.replied_back back]
  exact (NoticeFrame.becomeActive s h _).2

end

/-! ### The calibration arithmetic (R63, R64) -/

section
variable {e : HeadEntry} {k : Nat} {low : Bool} {echoes : List Echo}

theorem calibration_failed (few : low = true ∨ (echoes.filter fun x => decide (e.threshold ≤ x.amp)).length < 2) :
    calibration e k low echoes = (k, .failed) := by
  unfold calibration
  split_ifs with energy
  · rfl
  · have short := few.resolve_left energy
    split
    · rename_i reached
      rw [reached] at short
      simp at short
    · rfl

theorem calibration_pair {e0 e1 : Echo} {more : List Echo} (full : low = false)
    (reached : (echoes.filter fun x => decide (e.threshold ≤ x.amp)) = e0 :: e1 :: more) :
    calibration e k low echoes
      = (clampK e.limit (roundDiv (65536 * e.reference) (e1.time - e0.time)),
        if clampK e.limit (roundDiv (65536 * e.reference) (e1.time - e0.time)) = roundDiv (65536 * e.reference) (e1.time - e0.time)
          then .ok else .clamped) := by
  rw [calibration, full, reached]
  rfl

theorem clampK_within {limit n : Nat} (low : 65536 - limit ≤ n) (high : n ≤ 65536 + limit) : clampK limit n = n := by
  rw [clampK]
  omega

theorem clampK_above {limit n : Nat} (above : 65536 + limit < n) : clampK limit n = 65536 + limit := by
  rw [clampK]
  omega

theorem clampK_below {limit n : Nat} (below : n < 65536 - limit) : clampK limit n = 65536 - limit := by
  rw [clampK]
  omega

end

/-! ### A fire that is closed (R38, R43 to R45) -/

/-- The state in which a matching report of head `h` is routed: its fire is closed and resolved in its round. -/
def State.closed (s : State) (h : Fin 8) (round : Nat) : State :=
  ((s.setFire h .idle).replied h).tallyResolved round false

theorem State.closeFire_eq (s : State) (h : Fin 8) (round : Nat) (r : ShotReport) :
    s.closeFire h round r = (s.closed h round).routeReply h r :=
  rfl

theorem exec_shotReport_matching {s : State} {h : Fin 8} {node : Byte} {payload : Bytes} {r : ShotReport} {expiry : PartTime} {round : Nat}
    (hears : s.hearsHeadLink = true) (e : node.toNat = h.val + 1) (t : PartTime) (read : readShotReport payload = some r)
    (awaited : s.fire h = .outstanding r.seq r.kind expiry round) :
    exec (.shotReport t node payload) s = .next ((((s.begun t).closed h round).routeReply h r).settled.setReady s.ready) := by
  have outstanding : (s.begun t).fire h = .outstanding r.seq r.kind expiry round := awaited
  rw [exec_shotReport hears e, State.shotFrame, read]
  dsimp only
  rw [State.matchReport, outstanding]
  dsimp only
  rw [if_pos ⟨rfl, rfl⟩, State.closeFire_eq]

/-- What the closing of a fire leaves, before its report is routed. -/
structure State.FireClosed (s c : State) (h : Fin 8) (round : Nat) : Prop where
  partTime   : c.partTime = s.partTime
  hlp        : c.hlp = s.hlp
  rsq        : c.rsq = s.rsq
  mtr        : c.mtr = s.mtr
  wmb        : c.wmb = s.wmb
  lcp        : c.lcp = s.lcp
  cmu        : c.cmu = s.cmu
  tst        : c.tst = s.tst
  hcu        : c.hcu = { s.hcu with heads := c.hcu.heads }
  head       : c.head h = { s.head h with miss := (s.head h).miss - 1, state := if s.regains h then .active else (s.head h).state }
  others     : ∀ j, j ≠ h → c.head j = s.head j
  idle       : c.fire h = .idle
  fires      : ∀ j, j ≠ h → c.fire j = s.fire j
  seqs       : c.fsc.seqs = s.fsc.seqs
  state      : c.fsc.state = s.fsc.state
  cycleCount : c.fsc.cycleCount = s.fsc.cycleCount
  last       : ∀ x, s.lastOf round x →
    c.fsc.lastShort = decide (0 < x.misses ∨ 0 < x.skips) ∧ ∀ y ∈ c.fsc.tallies, y.round ≠ round
  open_      : (∀ x, ¬ s.lastOf round x) → c.fsc.lastShort = s.fsc.lastShort
    ∧ c.fsc.tallies = s.fsc.tallies.map fun y => if y.round = round then { y with resolved := y.resolved + 1 } else y
  recomputed : (s.regains h ∨ ∃ x, s.lastOf round x) → c.fsc.level = c.levelOf
  level      : ¬ s.regains h → (∀ x, ¬ s.lastOf round x) → c.fsc.level = s.fsc.level
  notices    : NoticeFrame s c
  back       : s.regains h → s.Raised c 2

theorem State.closed_leaves {s : State} {h : Fin 8} (law : s.HeadLawful h) (round : Nat) : s.FireClosed (s.closed h round) h round := by
  let x := s.setFire h .idle
  let m := x.replied h
  have reply : CompletionFrame x m := .replied x h
  have tally : TallyFrame m (s.closed h round) := .tallyResolved m round false
  have head (j : Fin 8) : (s.closed h round).head j = m.head j := by rw [State.head, tally.hcu]; rfl
  have fire (j : Fin 8) : (s.closed h round).fire j = x.fire j := State.fire_congr (tally.records.trans reply.records) j
  have fsc : m.fsc = { x.fsc with level := m.fsc.level } := State.replied_fsc x h
  have books := State.tallyResolved_books (s := s) (m := m) (round := round) (isMiss := false) (by rw [fsc]; rfl) (by rw [fsc]; rfl)
  have level := State.tallyResolved_level (s := s) (m := m) (round := round) (isMiss := false) (moved := s.regains h) (by rw [fsc]; rfl)
    (fun back => State.replied_level_back (s := x) back) (fun kept => State.replied_level_kept (s := x) law kept)
  have followed : followMiss (s.head h).state ((s.head h).miss - 1) = if s.regains h then .active else (s.head h).state := by
    split_ifs with back
    · exact (followMiss_replied law).1 back
    · exact (followMiss_replied law).2 back
  exact {
    partTime := tally.partTime.trans reply.partTime
    hlp := tally.hlp.trans reply.hlp
    rsq := tally.rsq.trans reply.rsq
    mtr := tally.mtr.trans (State.replied_mtr (s := x) law)
    wmb := tally.wmb.trans reply.wmb
    lcp := tally.lcp.trans reply.lcp
    cmu := tally.cmu.trans reply.cmu
    tst := tally.tst.trans reply.tst
    hcu := by rw [tally.hcu]; exact State.replied_hcu x h
    head := by rw [head, ← followed]; exact State.replied_head x h
    others := fun j n => (head j).trans (x.replied_other n)
    idle := (fire h).trans (State.setFire_fire _ _ _)
    fires := fun j n => (fire j).trans (State.setFire_fire_other _ _ n)
    seqs := tally.seqs.trans reply.seqs
    state := tally.state.trans reply.state
    cycleCount := tally.cycleCount.trans (by rw [fsc]; rfl)
    last := books.1
    open_ := books.2
    recomputed := level.1
    level := level.2
    notices := ((NoticeFrame.of_quiet rfl rfl rfl rfl : NoticeFrame s x).trans (.replied x h)).trans (.tallyResolved m round false)
    back := fun back => NoticeFrame.raised_after (State.replied_raised (s := x) back) (.tallyResolved m round false) }

/-- What the routing of a closed fire's report leaves, whatever its kind (R38). -/
structure ReplyRouted (h : Fin 8) (c a : State) : Prop where
  partTime : a.partTime = c.partTime
  fsc      : a.fsc = c.fsc
  hlp      : a.hlp = c.hlp
  tst      : a.tst = c.tst
  lcp      : a.lcp = c.lcp
  timer    : a.hcu.timer = c.hcu.timer
  history  : a.mtr.history = c.mtr.history
  announce : a.mtr.announce = c.mtr.announce
  state    : ∀ j, (a.head j).state = (c.head j).state
  miss     : ∀ j, (a.head j).miss = (c.head j).miss
  others   : ∀ j, j ≠ h → a.head j = c.head j
  ready    : c.ready = some .notices → a.ready = some .notices
  kept     : ∀ p, c.rqu.notices.pending p = true → a.rqu.notices.pending p = true

theorem ReplyRouted.shotArrival (c : State) (x : Shot) : ReplyRouted x.head c (c.shotArrival x) := by
  obtain ⟨q, r⟩ := c.shotArrival_resolution x
  have f := ShotFrame.shotArrival c x
  exact ⟨r.partTime, r.fsc, r.hlp, r.tst, r.lcp, r.timer, r.history, f.announce, r.state, r.miss, f.others, f.ready _, f.kept⟩

theorem ReplyRouted.completeCalibration (c : State) (h : Fin 8) (k : Nat) (cal : CalState) :
    ReplyRouted h c (c.completeCalibration h k cal) := by
  have r := CompletionFrame.completeCalibration c h k cal
  have n := NoticeFrame.completeCalibration c h k cal
  have head := c.completeCalibration_head h k cal
  have mtr := c.completeCalibration_mtr h k cal
  refine ⟨r.partTime, c.completeCalibration_fsc h k cal, r.hlp, r.tst, r.lcp, r.timer, r.history, by rw [mtr], fun j => ?_, fun j => ?_,
    fun j other => by rw [head, if_neg other], fun first => ?_, n.kept⟩
  · rw [head]
    split_ifs with e
    · rw [e]
      rfl
    · rfl
  · rw [head]
    split_ifs with e
    · rw [e]
      rfl
    · rfl
  · rcases n.claim with ⟨e, -⟩ | ⟨e, -⟩ <;> rw [e, first]
    rfl

theorem ReplyRouted.routeReply (c : State) (h : Fin 8) (r : ShotReport) : ReplyRouted h c (c.routeReply h r) := by
  unfold State.routeReply
  split
  · exact shotArrival c ⟨h, r.time, r.seq, r.temp, r.energyLow, r.echoes⟩
  · exact completeCalibration c h _ _

end Sys2Proof.Machine
end

section
/-! PROOFS. The report that matches an outstanding fire, as a whole step (R37, R38, R43 to R45, R50 to R54, R62 to R64). -/

namespace Sys2Proof.Machine

/-- A notice raised by the closing of a fire is told once the report has been routed. -/
theorem ReplyRouted.told {s v c a : State} {h : Fin 8} {place : Nat} (routed : ReplyRouted h c a) (start : v.ready = none)
    (raised : v.Raised c place) (lcp : c.lcp = s.lcp) (ready : Option Claimant) : s.Told (a.settled.setReady ready) place :=
  State.told_of_pending (routed.ready (by rw [raised.1, start]; rfl)) (routed.kept place raised.2) (routed.lcp.trans lcp) ready

theorem State.routeReply_measure {c : State} {h : Fin 8} {r : ShotReport} (kind : r.kind = .measure) :
    c.routeReply h r = c.shotArrival ⟨h, r.time, r.seq, r.temp, r.energyLow, r.echoes⟩ := by
  rw [State.routeReply, kind]

theorem State.routeReply_calibrate {c : State} {h : Fin 8} {r : ShotReport} (kind : r.kind = .calibrate) {k : Nat} {cal : CalState}
    (outcome : calibration (c.headEntry h) (c.head h).k r.energyLow r.echoes = (k, cal)) :
    c.routeReply h r = c.completeCalibration h k cal := by
  rw [State.routeReply, kind]
  dsimp only
  rw [State.calibrationReply, outcome]

/-- The record of a head whose calibration completes, when its fire has just been closed. -/
theorem State.FireClosed.calibrated {s c : State} {h : Fin 8} {round : Nat} (closed : s.FireClosed c h round) (k : Nat) (cal : CalState) :
    ((c.completeCalibration h k cal).head h).k = k ∧ ((c.completeCalibration h k cal).head h).cal = cal
      ∧ ((c.completeCalibration h k cal).head h).history = shiftOutcome (s.head h).history (cal != .failed)
      ∧ ((c.completeCalibration h k cal).head h).usable
        = s.pattern.getLsbD (shiftOutcome (s.head h).history (cal != .failed)).toNat := by
  have pattern : c.pattern = s.pattern := by rw [State.pattern, closed.tst]; rfl
  rw [State.completeCalibration_head, if_pos rfl, closed.head, HeadRecord.recorded, State.healthOf, pattern]
  exact ⟨rfl, rfl, rfl, rfl⟩

/-- Settles O34: the closing of the fire (`State.closed_leaves`), and then the routing of its report (`ReplyRouted.routeReply`), an arrival
at RSQ or the completion of a calibration. -/
theorem matchingReportClosesFire : Obligations.MatchingReportClosesFire := by
  intro t s h node payload r expiry round hears own read awaited law e reached shot back last
  let c := (s.begun t).closed h round
  let a := c.routeReply h r
  have closed : (s.begun t).FireClosed c h round := State.closed_leaves (s := s.begun t) law round
  have routed : ReplyRouted h c a := .routeReply c h r
  have choice : ChoiceFrame a a.settled := .settled a
  have fsc : a.settled.fsc = c.fsc := choice.fsc.trans routed.fsc
  have record (j : Fin 8) : (a.settled.setReady s.ready).head j = a.head j := choice.head j
  have inputs : a.levelOf = c.levelOf :=
    State.levelOf_of_states (congrArg Fsc.state routed.fsc) (congrArg Fsc.lastShort routed.fsc) routed.tst routed.state
  have fire (j : Fin 8) : (a.settled.setReady s.ready).fire j = c.fire j := State.fire_congr (congrArg Fsc.records fsc) j
  have stepped : exec (.shotReport t node payload) s = .next (a.settled.setReady s.ready) :=
    exec_shotReport_matching hears own t read awaited
  refine ⟨a.settled.setReady s.ready, stepped, choice.partTime.trans (routed.partTime.trans closed.partTime),
    (fire h).trans closed.idle, fun j n => (fire j).trans (closed.fires j n),
    by rw [record, routed.miss, closed.head]; rfl, fun j n => (record j).trans ((routed.others j n).trans (closed.others j n)),
    by rw [record, routed.state, closed.head]; rfl, fun regains => routed.told rfl (closed.back regains) closed.lcp _,
    ?resolved, ?unresolved, ?recomputed, fun kept open_ => (congrArg Fsc.level fsc).trans (closed.level kept open_), ?told,
    (congrArg Hcu.timer choice.hcu).trans (routed.timer.trans (by rw [closed.hcu]; rfl)), (congrArg Fsc.seqs fsc).trans closed.seqs,
    (congrArg Fsc.state fsc).trans closed.state, (congrArg Fsc.cycleCount fsc).trans closed.cycleCount,
    (congrArg Mtr.history choice.mtr).trans (routed.history.trans (congrArg Mtr.history closed.mtr)),
    (congrArg Mtr.announce choice.mtr).trans (routed.announce.trans (congrArg Mtr.announce closed.mtr)),
    choice.hlp.trans (routed.hlp.trans closed.hlp), choice.tst.trans (routed.tst.trans closed.tst), ?busy, ?measure, ?calibrate⟩
  case resolved =>
    intro x final
    change a.settled.fsc.lastShort = _ ∧ ∀ y ∈ a.settled.fsc.tallies, y.round ≠ round
    rw [fsc]
    exact closed.last x final
  case unresolved =>
    intro open_
    change a.settled.fsc.lastShort = _ ∧ a.settled.fsc.tallies = _
    rw [fsc]
    exact closed.open_ open_
  case recomputed =>
    intro either
    rw [← choice.levelOf (s := s) ((congrArg Fsc.state routed.fsc).trans closed.state), inputs]
    exact (congrArg Fsc.level fsc).trans (closed.recomputed either)
  case told =>
    intro differs
    refine routed.told rfl (closed.notices.level fun same => differs ?_) closed.lcp _
    exact (congrArg Fsc.level fsc).trans same
  case busy =>
    intro busy
    have lcp : a.lcp = s.lcp := routed.lcp.trans closed.lcp
    rw [State.settled_same a (.inr (lcp ▸ busy))]
    exact lcp
  case measure =>
    intro kind
    have routes : a = c.shotArrival shot := State.routeReply_measure kind
    obtain ⟨q, frame⟩ := c.shotArrival_resolution shot
    rw [← routes] at frame
    have heads (j : Fin 8) : (c.head j).history = (s.head j).history ∧ (c.head j).usable = (s.head j).usable
        ∧ (c.head j).k = (s.head j).k := by
      by_cases own : j = h
      · rw [own, closed.head]
        exact ⟨rfl, rfl, rfl⟩
      · rw [closed.others j own]
        exact ⟨rfl, rfl, rfl⟩
    have cal : (c.head h).cal = (s.head h).cal := by rw [closed.head]; rfl
    refine ⟨by rw [record, frame.k]; exact (heads h).2.2, by rw [record]; exact (frame.cal h).trans cal,
      (congrArg Hcu.request choice.hcu).trans (frame.request.trans (by rw [State.setRsq_hcu, closed.hcu]; rfl)),
      (congrArg Hcu.pointer choice.hcu).trans (frame.pointer.trans (by rw [State.setRsq_hcu, closed.hcu]; rfl)),
      ⟨c, closed.rsq, closed.mtr, closed.wmb, closed.cmu, closed.tst, closed.lcp, fsc.symm, closed.notices.rqu, heads,
        by rw [← routes]; rfl⟩,
      fun samples items => ?_⟩
    have waits : a = c.setRsq ⟨[.shot shot]⟩ :=
      routes.trans (State.shotArrival_waits shot (by rw [closed.mtr]; exact samples) (by rw [closed.rsq]; exact items))
    have quiet : NoticeFrame c (c.setRsq ⟨[.shot shot]⟩) := .of_quiet rfl rfl rfl rfl
    have notices : NoticeFrame (s.begun t) a := by
      rw [waits]
      exact closed.notices.trans quiet
    exact ⟨(congrArg Rsq.items choice.rsq).trans (by rw [waits]; rfl), choice.wmb.trans (by rw [waits]; exact closed.wmb),
      choice.mtr.trans (by rw [waits]; exact closed.mtr), (notices.settled_cmu rfl).trans (by rw [waits]; exact closed.cmu),
      notices.noticeAtMost rfl rfl rfl _⟩
  case calibrate =>
    intro kind
    let k := (calibration e (s.head h).k r.energyLow r.echoes).1
    let cal := (calibration e (s.head h).k r.energyLow r.echoes).2
    have entry : c.headEntry h = e := by rw [State.headEntry, closed.tst]; rfl
    have held : (c.head h).k = (s.head h).k := by rw [closed.head]; rfl
    have routes : a = c.completeCalibration h k cal := State.routeReply_calibrate kind (by rw [entry, held])
    have complete := CompletionFrame.completeCalibration c h k cal
    have released : (s.begun t).RequestReleased a h := by
      rw [routes]
      exact (c.completeCalibration_released h k cal).congr (by rw [closed.tst]) (by rw [closed.hcu]) (by rw [closed.hcu])
    have notices : NoticeFrame (s.begun t) a := by
      rw [routes]
      exact closed.notices.trans (.completeCalibration c h k cal)
    have outcome := closed.calibrated k cal
    rw [← routes] at complete outcome
    have hcu : (a.settled.setReady s.ready).hcu = a.hcu := choice.hcu
    refine ⟨choice.rsq.trans (complete.rsq.trans closed.rsq), choice.wmb.trans (complete.wmb.trans closed.wmb),
      choice.mtr.trans ((routes ▸ c.completeCalibration_mtr h k cal).trans closed.mtr),
      (notices.settled_cmu rfl).trans (complete.cmu.trans closed.cmu), notices.noticeAtMost rfl rfl rfl _,
      fun unnamed => ?_, fun named => ?_, ?_, ?_⟩
    · rw [hcu]
      exact released.other unnamed
    · rw [hcu, released.moved named]
      exact ⟨released.cleared named, fun i on off => State.pointerAfter_first (s := s.begun t) on off,
        State.pointerAfter_none (s := s.begun t)⟩
    · intro e0 e1 more full pair kNew
      have computed := calibration_pair (k := (s.head h).k) full pair
      have correction : k = clampK e.limit kNew := congrArg Prod.fst computed
      have judged : cal = if clampK e.limit kNew = kNew then .ok else .clamped := congrArg Prod.snd computed
      have good : (cal != .failed) = true := by
        rw [judged]
        split_ifs <;> rfl
      have clamped (moved : clampK e.limit kNew ≠ kNew) : cal = .clamped ∧ s.Told (a.settled.setReady s.ready) 4 := by
        rw [if_neg moved] at judged
        have raised : c.Raised a 4 := by
          rw [routes, judged]
          exact NoticeFrame.completeCalibration_clamped c h k
        exact ⟨judged, notices.told rfl rfl (closed.notices.raised_before raised) _⟩
      rw [good] at outcome
      obtain ⟨hk, hcal, history, usable⟩ := outcome
      rw [record, hk, hcal, history]
      refine ⟨rfl, usable, fun low high => ?_, fun above => ?_, fun below => ?_⟩
      · have within := clampK_within low high
        exact ⟨correction.trans within, judged.trans (if_pos within)⟩
      · have limit := clampK_above above
        exact ⟨correction.trans limit, clamped (by omega)⟩
      · have limit := clampK_below below
        exact ⟨correction.trans limit, clamped (by omega)⟩
    · intro few
      have computed := calibration_failed (k := (s.head h).k) few
      have correction : k = (s.head h).k := congrArg Prod.fst computed
      have judged : cal = .failed := congrArg Prod.snd computed
      have shifted : shiftOutcome (s.head h).history false = (s.head h).history <<< 1 := BitVec.or_zero
      rw [judged] at outcome
      obtain ⟨hk, hcal, history, usable⟩ := outcome
      rw [record, ← shifted]
      exact ⟨hk.trans correction, hcal, history, usable⟩

end Sys2Proof.Machine
end

section
/-! PROOFS. WRITE_TABLE of a head entry (R49, R57, R62, R184 to R189). -/

namespace Sys2Proof.Machine

/-! ### The bytes of an entry (R207) -/

theorem headEntryBytes_length (e : HeadEntry) : (headEntryBytes e).length = 11 :=
  rfl

/-- An entry within its ranges is read as it was written. -/
theorem readHeadEntry_bytes {e : HeadEntry} (inRange : e.inRange = true) : readHeadEntry (headEntryBytes e) = e := by
  obtain ⟨enabled, theta, distance, reference, limit, threshold⟩ := e
  simp only [HeadEntry.inRange, Bool.and_eq_true, within_iff] at inRange
  obtain ⟨⟨⟨⟨⟨-, hTheta⟩, ⟨-, hDistance⟩⟩, ⟨-, hReference⟩⟩, ⟨-, hLimit⟩⟩, ⟨-, hThreshold⟩⟩ := inRange
  have flag : flagBit (headEntryBytes ⟨enabled, theta, distance, reference, limit, threshold⟩) 0 0 = enabled := by
    cases enabled <;> simp [flagBit, field, bytesToNat, headEntryBytes, flagNat]
  rw [readHeadEntry, flag]
  congr 1
  · exact bytesToNat_be16 theta (by omega)
  · exact bytesToNat_be16 distance (by omega)
  · exact bytesToNat_be16 reference (by omega)
  · exact bytesToNat_be16 limit (by omega)
  · exact bytesToNat_be16 threshold (by omega)

section
variable {s : State} {i : Fin 8} {e : HeadEntry}

theorem headAt_val (i : Fin 8) : headAt i.val = i :=
  Fin.ext (Nat.mod_eq_of_lt i.isLt)

/-- The entry stored (R185). -/
def State.withHeadEntry (s : State) (i : Fin 8) (e : HeadEntry) : State :=
  s.setTst { s.tst with heads := s.tst.heads.set i (some e) }

theorem State.store_headEntryBytes (inRange : e.inRange = true) :
    s.setTst (s.tst.store 0 i.val (headEntryBytes e)) = s.withHeadEntry i e := by
  have stored : s.tst.heads.setIfInBounds i.val (some e) = s.tst.heads.set i (some e) := by
    ext j hj
    rw [Vector.getElem_setIfInBounds, Vector.getElem_set]
  rw [Tst.store, readHeadEntry_bytes inRange, stored]
  rfl

/-- No check of R184 refuses the write. -/
theorem State.writeRefusal_headEntry (idle : s.fsc.state = .stopped ∨ s.fsc.state = .halted) (free0 : s.ctx 0 = none)
    (free1 : s.ctx 1 = none) (inRange : e.inRange = true)
    (clear : e.enabled = true → ∀ x, s.tst.tracking = some x → x.gateDist < e.distance ∧ e.distance ≤ x.gateDist + 8000) :
    s.writeRefusal 0 i.val (headEntryBytes e) = none := by
  have unlocked : ¬ s.writeLocked 0 = true := by
    rw [State.writeLocked_iff, State.Locked]
    rcases idle with e | e <;> simp [e]
  have unused : ¬ s.writeInUse 0 i.val = true := by
    rw [State.writeInUse_iff, State.InUse]
    have free (slot : Fin 2) (c : ShellContext) : s.ctx slot ≠ some c := by
      match slot with
      | 0 => simp [free0]
      | 1 => simp [free1]
    simp [free]
  have fields : contentsInRange 0 (headEntryBytes e) = true := by
    rw [contentsInRange, readHeadEntry_bytes inRange, inRange]
  have consistent : s.contentsConsistent 0 (headEntryBytes e) = true := by
    simp only [State.contentsConsistent, readHeadEntry_bytes inRange, Bool.or_eq_true, Bool.not_eq_true', Option.all_eq_true, standsClear_iff]
    cases on : e.enabled with
    | false => exact .inl rfl
    | true => exact .inr (clear on)
  have index : ¬ maxIndex 0 < i.val := Nat.not_lt.2 (Nat.le_of_lt_succ i.isLt)
  rw [State.writeRefusal, if_neg (by decide), if_neg index, if_neg (by simp [headEntryBytes_length, contentsLength]), if_neg unlocked,
    if_neg unused, fields, consistent]
  rfl

end

/-! ### The head's state, request and level (R45, R49, R62, R189) -/

section
variable (s : State) (i : Fin 8)

/-- Steps 2 and 3 of an accepted write: the head's record before the level is recomputed (R189). -/
def State.headJudged : State :=
  (s.headStateWritten i).clampHead i

/-- They change HCU alone. -/
theorem State.headJudged_hcu : s.headJudged i = s.setHcu (s.headJudged i).hcu := by
  unfold State.headJudged
  rcases s.headStateWritten_cases i with ⟨-, -, e⟩ | ⟨-, e⟩ | ⟨-, -, e⟩ <;> rw [e]
  · rfl
  · rfl
  · unfold State.releaseRequest
    split_ifs <;> rfl

theorem State.headJudged_timer : (s.headJudged i).hcu.timer = s.hcu.timer := by
  change (s.headStateWritten i).hcu.timer = _
  rcases s.headStateWritten_cases i with ⟨-, -, e⟩ | ⟨-, e⟩ | ⟨-, -, e⟩ <;> rw [e]
  · rfl
  · exact (CompletionFrame.releaseRequest _ i).timer

/-- A head that the entry disables releases the request (R49, R62). -/
theorem State.headJudged_disabled (off : s.enabled i = false) (was : (s.head i).state ≠ .disabled) :
    s.RequestReleased (s.headJudged i) i := by
  rcases s.headStateWritten_cases i with ⟨on, -, -⟩ | ⟨agree, -⟩ | ⟨-, -, e⟩
  · simp [on] at off
  · simp [agree.2 was] at off
  · have released : s.RequestReleased ((s.setHead i { s.head i with state := .disabled }).releaseRequest i) i :=
      (State.releaseRequest_released _ i).congr rfl rfl rfl
    rw [State.headJudged, e]
    exact ⟨released.other, released.cleared, released.moved⟩

/-- Any other write leaves the request and the pointer. -/
theorem State.headJudged_kept (kept : ¬ (s.enabled i = false ∧ (s.head i).state ≠ .disabled)) :
    (s.headJudged i).hcu.request = s.hcu.request ∧ (s.headJudged i).hcu.pointer = s.hcu.pointer := by
  rcases s.headStateWritten_cases i with ⟨-, -, e⟩ | ⟨-, e⟩ | ⟨off, was, -⟩
  · rw [State.headJudged, e]
    exact ⟨rfl, rfl⟩
  · rw [State.headJudged, e]
    exact ⟨rfl, rfl⟩
  · exact absurd ⟨off, was⟩ kept

end

/-! ### The command -/

/-- The fields that neither the answer nor a notice before it touches. -/
theorem State.withAnswer_fields (s : State) (t : PartTime) (h : CommandHeader) (code : Byte) (data : Bytes) :
    (s.withAnswer t h code data).tst = s.tst ∧ (s.withAnswer t h code data).hcu = s.hcu ∧ (s.withAnswer t h code data).fsc = s.fsc := by
  unfold State.withAnswer
  split_ifs <;> exact ⟨rfl, rfl, rfl⟩

theorem State.withNoticeThenAnswer_fields (s : State) (t : PartTime) (h : CommandHeader) (code : Byte) (data : Bytes) :
    (s.withNoticeThenAnswer t h code data).tst = s.tst ∧ (s.withNoticeThenAnswer t h code data).hcu = s.hcu
      ∧ (s.withNoticeThenAnswer t h code data).fsc = s.fsc := by
  unfold State.withNoticeThenAnswer State.notified
  split_ifs <;> exact ⟨rfl, rfl, rfl⟩

section
variable {s : State} {h : CommandHeader} {i : Fin 8} {e : HeadEntry}

theorem State.runCommand_writeHead (u : State) (t : PartTime) (h : CommandHeader) (i : Fin 8) (c : Bytes) (cut : Cut) :
    u.runCommand t (commandFrame h 2 ([0, BitVec.ofNat 8 i.val] ++ c)) cut
      = ⟨(u.writeTable t 0 i.val c).1, (u.writeTable t 0 i.val c).2, []⟩ := by
  have index : field ([0, BitVec.ofNat 8 i.val] ++ c) 1 1 = i.val := by
    simp [field, bytesToNat]
    omega
  have acts : u.runCommand t (commandFrame h 2 ([0, BitVec.ofNat 8 i.val] ++ c)) cut
      = ⟨(u.writeTable t 0 (field ([0, BitVec.ofNat 8 i.val] ++ c) 1 1) c).1,
        (u.writeTable t 0 (field ([0, BitVec.ofNat 8 i.val] ++ c) 1 1) c).2, []⟩ := rfl
  rw [acts, index]

/-- The head's record, its request and the level's inputs after the write of an entry at part time `t`. -/
def State.headEntered (s : State) (t : PartTime) (i : Fin 8) (e : HeadEntry) : State :=
  ((s.begun t).withHeadEntry i e).headJudged i

theorem State.runCommand_headEntry (t : PartTime) {c : Bytes} (accepted : s.writeRefusal 0 i.val c = none)
    (stored : s.setTst (s.tst.store 0 i.val c) = s.withHeadEntry i e) :
    (s.begun t).runCommand t (commandFrame h 2 ([0, BitVec.ofNat 8 i.val] ++ c)) Cut.nothing
      = ⟨(s.headEntered t i e).recomputeLevel, .done, []⟩ := by
  have refusal : (s.begun t).writeRefusal 0 i.val c = none := accepted
  have entry : (s.begun t).setTst ((s.begun t).tst.store 0 i.val c) = (s.begun t).withHeadEntry i e :=
    congrArg (fun u => u.begun t) stored
  have effects : (((s.begun t).withHeadEntry i e).writeEffects t 0 i.val) = (s.headEntered t i e).recomputeLevel :=
    congrArg ((s.begun t).withHeadEntry i e).headWritten (headAt_val i)
  rw [State.runCommand_writeHead, State.writeTable, refusal, entry]
  dsimp only
  rw [effects]

/-- An accepted write: the entry, what it makes of HCU, and the level that R45 then gives, with LEVEL_CHANGE and the answer as
`State.withNoticeThenAnswer` has them when it differs. -/
theorem exec_writeHead (takes : s.takes h = true) (t : PartTime) {c : Bytes} (accepted : s.writeRefusal 0 i.val c = none)
    (stored : s.setTst (s.tst.store 0 i.val c) = s.withHeadEntry i e) :
    ∃ s', exec (.writeTable t h ([0, BitVec.ofNat 8 i.val] ++ c)) s = .next s'
      ∧ s'.tst = (s.withHeadEntry i e).tst ∧ s'.hcu = (s.headEntered t i e).hcu
      ∧ s'.fsc = { s.fsc with level := (s.headEntered t i e).levelOf }
      ∧ s' = if s'.fsc.level = s.fsc.level then ({ s with tst := s'.tst, hcu := s'.hcu } : State).withAnswer t h 0 []
        else ({ s with
          tst := s'.tst
          hcu := s'.hcu
          fsc := s'.fsc
          rqu := { s.rqu with notices := { s.rqu.notices with levelChange := true } } } : State).withNoticeThenAnswer t h 0 [] := by
  let kept : State := { s with tst := (s.withHeadEntry i e).tst, hcu := (s.headEntered t i e).hcu }
  let raised : State := { kept with
    fsc := { s.fsc with level := (s.headEntered t i e).levelOf }
    rqu := { s.rqu with notices := { s.rqu.notices with levelChange := true } } }
  have judged : s.headEntered t i e = kept.begun t := State.headJudged_hcu _ i
  have level : (kept.begun t).levelOf = (s.headEntered t i e).levelOf := (congrArg State.levelOf judged).symm
  have writes := State.runCommand_headEntry (h := h) t accepted stored
  by_cases same : (s.headEntered t i e).levelOf = s.fsc.level
  · have unmoved : (s.headEntered t i e).recomputeLevel = kept.begun t := by
      refine (congrArg State.recomputeLevel judged).trans ?_
      rw [State.recomputeLevel_same (by rw [level]; exact same)]
    have stepped : exec (.writeTable t h ([0, BitVec.ofNat 8 i.val] ++ c)) s = .next (kept.withAnswer t h 0 []) :=
      congrArg _ (State.commandArrives_answered takes (u := kept) (status := .done) rfl (writes.trans (by rw [unmoved])))
    obtain ⟨tst, hcu, fsc⟩ := kept.withAnswer_fields t h 0 []
    exact ⟨_, stepped, tst, hcu, fsc.trans (by rw [same]), by rw [if_pos (by rw [fsc]), tst, hcu]⟩
  · have moved : (s.headEntered t i e).recomputeLevel = (raised.begun t).claim .notices := by
      refine (congrArg State.recomputeLevel judged).trans ?_
      rw [State.recomputeLevel_changed (by rw [level]; exact same), level]
      rfl
    have stepped : exec (.writeTable t h ([0, BitVec.ofNat 8 i.val] ++ c)) s = .next (raised.withNoticeThenAnswer t h 0 []) :=
      congrArg _ (State.commandArrives_noticed takes (u := raised) (status := .done) rfl (by simp [raised, Notices.any])
        (writes.trans (by rw [moved])))
    obtain ⟨tst, hcu, fsc⟩ := raised.withNoticeThenAnswer_fields t h 0 []
    exact ⟨_, stepped, tst, hcu, fsc, by rw [if_neg (by rw [fsc]; exact same), tst, hcu, fsc]⟩

end

/-- Settles O9: the checks pass, the head's record is the written one (`State.clampHead_headStateWritten_head`), and the request is
released when the entry disables the head. -/
theorem writeHeadEnables : Obligations.WriteHeadEnables := by
  intro t h s i e takes idle free0 free1 inRange clear k disables
  obtain ⟨s', stepped, tst, hcu, fsc, whole⟩ := exec_writeHead takes t
    (State.writeRefusal_headEntry idle free0 free1 inRange clear) (State.store_headEntryBytes inRange)
  let w := (s.begun t).withHeadEntry i e
  have entry : w.headEntry i = e := by
    simp [w, State.headEntry, State.withHeadEntry]
  have on : w.enabled i = e.enabled := congrArg HeadEntry.enabled entry
  have head (j : Fin 8) : s'.head j = if j = i then (s.head i).written e (s.pattern.getLsbD 15) else s.head j := by
    have written := w.clampHead_headStateWritten_head i j
    rw [entry] at written
    rw [State.head, hcu]
    exact written
  refine ⟨s', stepped, tst, ?enables, ?disables, ?agrees, ?others, ?released, ?kept, ?timer, ?level, whole⟩
  case enables =>
    intro was enabled
    rw [head, if_pos rfl, HeadRecord.written, if_pos enabled, if_pos was]
    rfl
  case disables =>
    rintro ⟨-, off⟩
    rw [head, if_pos rfl, HeadRecord.written, if_neg (by simp [off])]
    rfl
  case agrees =>
    intro agree
    rw [head, if_pos rfl, HeadRecord.written]
    split_ifs with enabled was
    · simp [agree.1 was] at enabled
    · rfl
    · rw [HeadRecord.mk.injEq]
      exact ⟨(agree.2 (by simpa using enabled)).symm, rfl, rfl, rfl, rfl, rfl⟩
  case others =>
    intro j n
    rw [head, if_neg n]
  case released =>
    rintro ⟨was, off⟩ named
    have released : w.RequestReleased (s.headEntered t i e) i := w.headJudged_disabled i (on.trans off) was
    have enabled (j : Fin 8) : s'.enabled j = w.enabled j := by rw [State.enabled, State.headEntry, tst]; rfl
    rw [hcu, released.moved named]
    simp only [enabled]
    exact ⟨released.cleared named, fun n => State.pointerAfter_first, State.pointerAfter_none⟩
  case kept =>
    intro kept
    by_cases off : disables
    · have released : w.RequestReleased (s.headEntered t i e) i := w.headJudged_disabled i (on.trans off.2) off.1
      rw [hcu]
      exact released.other fun named => kept ⟨off, named⟩
    · rw [hcu]
      exact w.headJudged_kept i fun ⟨out, was⟩ => off ⟨was, on.symm.trans out⟩
  case timer =>
    rw [hcu]
    exact w.headJudged_timer i
  case level =>
    have judged := w.headJudged_hcu i
    have state : (s.headEntered t i e).fsc.state = s.fsc.state := congrArg (fun u => u.fsc.state) judged
    have shown : s'.runningLevel = (s.headEntered t i e).runningLevel :=
      State.runningLevel_congr (by rw [fsc]; exact (congrArg (fun u => u.fsc.lastShort) judged).symm)
        (by rw [tst]; exact (congrArg (fun u => u.tst.heads) judged).symm) fun j => by rw [State.head, hcu]; rfl
    rw [fsc, State.levelOf_eq, state, shown]

end Sys2Proof.Machine
end

section
/-! PROOFS. The calibration request: REQUEST_CAL (R60), and the calibration timer that expires (R58, R59). -/

namespace Sys2Proof.Machine

/-! ### The first enabled head from a place on (R59) -/

section
variable {s : State} {p : Fin 8}

theorem headAt_val_add (p : Fin 8) (j : Nat) (hj : j < 8) : headAt (p.val + j) = p + ⟨j, hj⟩ :=
  Fin.ext rfl

/-- A search of the heads from a place on finds the head at a distance when it is enabled and none nearer is. -/
theorem State.firstEnabled_some {i : Fin 8} (on : s.enabled (p + i) = true) (off : ∀ j : Fin 8, j < i → s.enabled (p + j) = false) :
    s.firstEnabled p.val = some (p + i) := by
  rw [State.firstEnabled, List.find?_map, Option.map_eq_some_iff]
  refine ⟨i.val, List.find?_range_eq_some.2 ⟨?_, List.mem_range.2 i.isLt, fun j hj => ?_⟩, headAt_val_add p i.val i.isLt⟩
  · simpa [headAt_val_add p i.val i.isLt] using on
  · have hj8 : j < 8 := hj.trans i.isLt
    simpa [headAt_val_add p j hj8] using off ⟨j, hj8⟩ hj

theorem State.firstEnabled_none (off : ∀ j, s.enabled j = false) (start : Nat) : s.firstEnabled start = none := by
  simp [State.firstEnabled, off]

end

/-! ### REQUEST_CAL (R60) -/

/-- REQUEST_CAL, taken: the answer of its owner, which raises no notice. -/
theorem exec_requestCal_answered {s u : State} {h : CommandHeader} (takes : s.takes h = true) {t : PartTime} {b : Byte} {status : Status}
    {data : Bytes} (ready : u.ready = s.ready) (acts : (s.begun t).actRequestCal [b] = ⟨u.begun t, status, data⟩) :
    exec (.requestCal t h [b]) s = .next (u.withAnswer t h status.code data) :=
  congrArg _ (State.commandArrives_answered takes ready (code := 6) (args := [b]) (cut := Cut.nothing) acts)

theorem field_byte (b : Byte) : field [b] 0 1 = b.toNat := by
  simp [field, bytesToNat]

section
variable {s : State} {b : Byte}

theorem State.actRequestCal_index (above : 7 < b.toNat) : s.actRequestCal [b] = ⟨s, .badIndex, []⟩ := by
  rw [State.actRequestCal, field_byte, if_pos above]

variable {i : Fin 8} (named : b.toNat = i.val)
include named

theorem State.actRequestCal_head :
    s.actRequestCal [b] = if !s.enabled i then ⟨s, .badValue, []⟩
      else if s.hcu.request.isSome then ⟨s, .pending, []⟩
      else ⟨s.setHcu { s.hcu with request := some i }, .done, []⟩ := by
  rw [State.actRequestCal, field_byte, named, if_neg (by omega), headAt_val]

theorem State.actRequestCal_disabled (off : s.enabled i = false) : s.actRequestCal [b] = ⟨s, .badValue, []⟩ := by
  simp [State.actRequestCal_head named, off]

theorem State.actRequestCal_pending (on : s.enabled i = true) (held : s.hcu.request ≠ none) :
    s.actRequestCal [b] = ⟨s, .pending, []⟩ := by
  simp [State.actRequestCal_head named, on, Option.isSome_iff_ne_none.2 held]

theorem State.actRequestCal_accepted (on : s.enabled i = true) (free : s.hcu.request = none) :
    s.actRequestCal [b] = ⟨s.setHcu { s.hcu with request := some i }, .done, []⟩ := by
  simp [State.actRequestCal_head named, on, free]

end

/-- Settles O17: each row is one of the owner's answers. -/
theorem requestCalSets : Obligations.RequestCalSets := by
  intro t h s b takes
  refine ⟨fun above => ?_, fun i named => ⟨fun off => ?_, fun on held => ?_, fun on free => ?_⟩⟩
  · exact exec_requestCal_answered takes (status := .badIndex) rfl (State.actRequestCal_index above)
  · exact exec_requestCal_answered takes (status := .badValue) rfl (State.actRequestCal_disabled (s := s.begun t) named off)
  · exact exec_requestCal_answered takes (status := .pending) rfl (State.actRequestCal_pending (s := s.begun t) named on held)
  · exact exec_requestCal_answered takes (status := .done) rfl (State.actRequestCal_accepted (s := s.begun t) named on free)

/-! ### The calibration timer (R58, R59) -/

section
variable {s : State}

theorem State.timerRequest_pending (held : s.hcu.request ≠ none) : s.timerRequest = s.raiseCalOverrun := by
  unfold State.timerRequest
  cases request : s.hcu.request with
  | none => exact absurd request held
  | some _ => rfl

theorem State.timerRequest_free (free : s.hcu.request = none) :
    s.timerRequest = s.setHcu { s.hcu with request := s.firstEnabled s.hcu.pointer.val } := by
  rw [State.timerRequest, free]

/-- The state at the expiry of the timer, which is rearmed from there for the interval then held, with the request and the notice set that
the expiry leaves (R58, R59). -/
def State.rearmed (s : State) (t : PartTime) (request : Option (Fin 8)) (notices : Notices) : State :=
  { s with
    partTime := t
    hcu := { s.hcu with
      request := request
      timer := if s.calSetup.interval = 0 then none else some ⟨t, s.calSetup.interval⟩ }
    rqu := { s.rqu with notices := notices } }

variable {x : CalTimer} (armed : s.hcu.timer = some x) {t : PartTime} (due : x.expiry = t)
include armed due

theorem State.timerExpiry_eq :
    s.timerExpiry = (s.setTime t).timerRequest.setHcu
      { (s.setTime t).timerRequest.hcu with timer := armTimer t (s.setTime t).timerRequest.calSetup.interval } := by
  rw [State.timerExpiry, armed]
  dsimp only
  rw [due]

theorem State.timerExpiry_pending (held : s.hcu.request ≠ none) :
    s.timerExpiry = (s.rearmed t s.hcu.request { s.rqu.notices with calOverrun := true }).claim .notices := by
  rw [State.timerExpiry_eq armed due, State.timerRequest_pending (s := s.setTime t) held]
  rfl

theorem State.timerExpiry_free (free : s.hcu.request = none) :
    s.timerExpiry = s.rearmed t (s.firstEnabled s.hcu.pointer.val) s.rqu.notices := by
  rw [State.timerExpiry_eq armed due, State.timerRequest_free (s := s.setTime t) free]
  rfl

/-- An expiry that finds a request raises CAL_OVERRUN, which an idle transmitter takes (R59, R157). -/
theorem exec_calibrationTimerExpiry_pending (rst : s.rstHigh = true) (held : s.hcu.request ≠ none) :
    exec .calibrationTimerExpiry s
      = .next (s.rearmed t s.hcu.request { s.rqu.notices with calOverrun := true }).notified := by
  refine congrArg _ ((actingTimed_of_rstHigh rst _).trans ?_)
  rw [State.timerExpiry_pending (s := s.setReady none) armed due held]
  exact State.settled_notices (s.rearmed t s.hcu.request { s.rqu.notices with calOverrun := true }) (by simp [State.rearmed, Notices.any])

/-- An expiry without a request claims nothing; the search from the pointer on gives the request (R59). -/
theorem exec_calibrationTimerExpiry_free (rst : s.rstHigh = true) (free : s.hcu.request = none) :
    exec .calibrationTimerExpiry s = .next (s.rearmed t (s.firstEnabled s.hcu.pointer.val) s.rqu.notices) := by
  refine congrArg _ ((actingTimed_of_rstHigh rst _).trans ?_)
  rw [State.timerExpiry_free (s := s.setReady none) armed due free, State.settled_same _ (.inl rfl)]
  rfl

end

theorem CalTimer.expiry_eq (x : CalTimer) : x.expiry = x.since + BitVec.ofNat 32 (x.interval * 1000000) :=
  rfl

/-- Settles O42: the expiry acts by the request, and rearms the timer in every row. -/
theorem calibrationTimerExpires : Obligations.CalibrationTimerExpires := by
  intro s x rst armed t timer
  refine ⟨fun held => ?pending, fun free off => ?nobody, fun i free on off => ?first⟩
  case pending =>
    exact exec_calibrationTimerExpiry_pending armed x.expiry_eq rst held
  case nobody =>
    rw [exec_calibrationTimerExpiry_free armed x.expiry_eq rst free, State.firstEnabled_none off, ← free]
    rfl
  case first =>
    rw [exec_calibrationTimerExpiry_free armed x.expiry_eq rst free, State.firstEnabled_some on off]
    rfl

end Sys2Proof.Machine
end

section
/-! PROOFS. The bytes of nine tables (R207): an entry or part within its ranges is read as it was written. The head table's are above. -/

namespace Sys2Proof.Machine

theorem bytesToNat_byteOf {n : Nat} (h : n < 256) : bytesToNat [byteOf n] = n := by
  simp [bytesToNat, Nat.mod_eq_of_lt h]

/-! ### Entries of single fields -/

theorem readTracking_bytes {x : Tracking} (inRange : x.inRange = true) : readTracking (trackingBytes x) = x := by
  obtain ⟨nominal, gateDist, scaleLimit, gapLimit, hold, filterTime⟩ := x
  simp only [Tracking.inRange, Bool.and_eq_true, within_iff] at inRange
  rw [readTracking]
  congr 1
  · exact bytesToNat_be16 nominal (by omega)
  · exact bytesToNat_be16 gateDist (by omega)
  · exact bytesToNat_byteOf (n := scaleLimit) (by omega)
  · exact bytesToNat_be16 gapLimit (by omega)
  · exact bytesToNat_be16 hold (by omega)
  · exact bytesToNat_be16 filterTime (by omega)

/-- The wall and its tolerances have no range but their field's (R191). -/
theorem readProduct_bytes {p : Product} (inRange : p.inRange = true) (wall : p.nominalWall ≤ 65535) (lower : p.lowerTol ≤ 65535)
    (upper : p.upperTol ≤ 65535) : readProduct (productBytes p) = p := by
  obtain ⟨nominalWall, lowerTol, upperTol, grade, sectors, segLength, wallLo, wallHi, ampMin, repeatTol, minShots, eccLimit, eccSegLimit⟩ := p
  simp only [Product.inRange, Bool.and_eq_true, within_iff, List.contains_iff_mem, List.mem_cons, List.not_mem_nil, or_false] at inRange
  dsimp only at wall lower upper
  rw [readProduct]
  congr 1
  · exact bytesToNat_be16 nominalWall (by omega)
  · exact bytesToNat_be16 lowerTol (by omega)
  · exact bytesToNat_be16 upperTol (by omega)
  · exact bytesToNat_byteOf (n := grade) (by omega)
  · exact bytesToNat_byteOf (n := sectors) (by omega)
  · exact bytesToNat_be16 segLength (by omega)
  · exact bytesToNat_be16 wallLo (by omega)
  · exact bytesToNat_be16 wallHi (by omega)
  · exact bytesToNat_be16 ampMin (by omega)
  · exact bytesToNat_byteOf (n := repeatTol) (by omega)
  · exact bytesToNat_byteOf (n := minShots) (by omega)
  · exact bytesToNat_be16 eccLimit (by omega)
  · exact bytesToNat_be16 eccSegLimit (by omega)

theorem readProfile_bytes {x : Profile} (measure : x.measure ≤ 5000) (calibrate : x.calibrate ≤ 5000) :
    readProfile (profileBytes x) = x := by
  rw [readProfile]
  congr 1
  · exact bytesToNat_be16 x.measure (by omega)
  · exact bytesToNat_be16 x.calibrate (by omega)

theorem readCalSetup_bytes {x : CalSetup} (interval : x.interval ≤ 3600) : readCalSetup (calSetupBytes x) = x := by
  rw [readCalSetup]
  congr 1
  · exact bytesToNat_be16 x.interval (by omega)
  · cases x with
    | mk interval defer => cases defer <;> simp [flagBit, field, bytesToNat, calSetupBytes, be16, flagNat]

/-! ### Parts of equal groups -/

theorem flatMap_length_of_groups {α : Type} {f : α → Bytes} {k : Nat} (size : ∀ x, (f x).length = k) (l : List α) :
    (l.flatMap f).length = l.length * k := by
  simp [List.length_flatMap, size]

/-- Of groups of equal size, each is found at its place. -/
theorem flatMap_group {α : Type} {f : α → Bytes} {k : Nat} (size : ∀ x, (f x).length = k) (l : List α) (i : Nat) (hi : i < l.length) :
    ((l.flatMap f).drop (k * i)).take k = f l[i] := by
  induction l generalizing i with
  | nil => simp at hi
  | cons x rest ih =>
    cases i with
    | zero => simp [← size x]
    | succ i =>
      have next : k * (i + 1) = (f x).length + k * i := by rw [size, Nat.mul_succ, Nat.add_comm]
      rw [List.flatMap_cons, next, List.drop_length_add_append, ih i (Nat.lt_of_succ_lt_succ hi)]
      rfl

/-- A grade point lies in its ranges (R192). -/
theorem GradePoint.inRange_iff (x : GradePoint) :
    x.inRange = true ↔ 30000 ≤ x.velocity ∧ x.velocity ≤ 65000 ∧ 49152 ≤ x.shrink ∧ x.shrink ≤ 65535 := by
  simp [GradePoint.inRange, within_iff, and_assoc]

theorem gradePartBytes_length (g : GradePart) : (gradePartBytes g).length = 44 := by
  rw [gradePartBytes, flatMap_length_of_groups (k := 4) fun _ => rfl]
  simp

theorem readGradePart_bytes {g : GradePart} (inRange : GradePart.inRange g = true) : readGradePart (gradePartBytes g) = g := by
  ext i hi
  have long : i < g.toList.length := by simpa using hi
  have point : g.toList[i] = g[i] := Vector.getElem_toList long
  have group : ((gradePartBytes g).drop (4 * i)).take 4 = be16 g[i].velocity ++ be16 g[i].shrink := by
    rw [gradePartBytes, flatMap_group (k := 4) (fun _ => rfl) _ i long, point]
  obtain ⟨-, velocity, -, shrink⟩ := (GradePoint.inRange_iff g[i]).1
    (List.all_eq_true.1 inRange _ (point ▸ List.getElem_mem long))
  rw [readGradePart, Vector.getElem_ofFn]
  congr 1
  · rw [← Nat.add_zero (4 * i), ← field_take_drop _ (len := 4) (by decide), group]
    exact bytesToNat_be16 _ (by omega)
  · rw [← field_take_drop _ (len := 4) (by decide), group]
    exact bytesToNat_be16 _ (by omega)

/-- The fields of a list entry lie in their ranges (R194). -/
def ListEntry.Fits (e : ListEntry) : Prop :=
  e.offset ≤ 60000 ∧ ∀ o head period phase w steal, e = .shot o head period phase w steal →
    period ∈ [1, 2, 3, 4, 6, 8, 12, 16] ∧ phase ≤ 15

theorem listEntryBytes_length (e : ListEntry) : (listEntryBytes e).length = 7 := by
  cases e <;> rfl

/-- The profile and the steal flag share a byte (R207). -/
theorem profile_and_steal (w : Fin 4) (steal : Bool) :
    w.val + 128 * flagNat steal < 256 ∧ Fin.ofNat 4 (w.val + 128 * flagNat steal) = w
      ∧ (w.val + 128 * flagNat steal).testBit 7 = steal := by
  revert w steal
  decide

theorem readListEntry_bytes {e : ListEntry} (fits : e.Fits) : readListEntry (listEntryBytes e) = some e := by
  obtain ⟨offset, shots⟩ := fits
  cases e with
  | none => rfl
  | fin o =>
    have at_ : field (listEntryBytes (.fin o)) 1 2 = o := bytesToNat_be16 o (Nat.lt_of_le_of_lt offset (by decide))
    have kind : field (listEntryBytes (.fin o)) 0 1 = 2 := rfl
    simp [readListEntry, kind, at_, show o ≤ 60000 from offset]
  | shot o head period phase w steal =>
    obtain ⟨known, phases⟩ := shots o head period phase w steal rfl
    have small : period < 256 := (by decide : ∀ n ∈ periods, n < 256) period known
    obtain ⟨byte, profile, flag⟩ := profile_and_steal w steal
    have atKind : field (listEntryBytes (.shot o head period phase w steal)) 0 1 = 1 := rfl
    have atOffset : field (listEntryBytes (.shot o head period phase w steal)) 1 2 = o :=
      bytesToNat_be16 o (Nat.lt_of_le_of_lt offset (by decide))
    have atHead : field (listEntryBytes (.shot o head period phase w steal)) 3 1 = head.val := bytesToNat_byteOf (by omega)
    have atPeriod : field (listEntryBytes (.shot o head period phase w steal)) 4 1 = period := bytesToNat_byteOf small
    have atPhase : field (listEntryBytes (.shot o head period phase w steal)) 5 1 = phase := bytesToNat_byteOf (by omega)
    have atLast : field (listEntryBytes (.shot o head period phase w steal)) 6 1 = w.val + 128 * flagNat steal := bytesToNat_byteOf byte
    rw [readListEntry, atKind, if_neg (by decide), if_neg (by decide), if_pos rfl, flagBit, atOffset, atHead, atPeriod, atPhase, atLast, profile,
      flag, if_pos ⟨offset, Nat.le_of_lt_succ head.isLt, known, phases⟩]
    exact congrArg (fun j => some (ListEntry.shot o j period phase w steal)) (headAt_val head)

theorem listPartBytes_length (x : ListPart) : (listPartBytes x).length = 56 := by
  rw [listPartBytes, flatMap_length_of_groups listEntryBytes_length]
  simp

section
variable {x : ListPart} (fits : ∀ e ∈ x.toList, e.Fits)
include fits

theorem readPartEntry_bytes (i : Nat) (hi : i < 8) : readPartEntry (listPartBytes x) i = some x[i] := by
  have long : i < x.toList.length := by simpa using hi
  have entry : x.toList[i] = x[i] := Vector.getElem_toList long
  rw [readPartEntry, listPartBytes, flatMap_group listEntryBytes_length _ i long, entry]
  exact readListEntry_bytes (fits _ (entry ▸ List.getElem_mem long))

theorem readListPart_bytes : readListPart (listPartBytes x) = x := by
  ext i hi
  rw [readListPart, Vector.getElem_ofFn, readPartEntry_bytes fits i hi, Option.getD_some]

end

end Sys2Proof.Machine
end

section
/-! PROOFS. WRITE_TABLE of the tables beside the head table (R58, R184 to R187, R190 to R196). -/

namespace Sys2Proof.Machine

/-! ### An accepted write (R184, R185) -/

theorem setIfInBounds_eq_set {α : Type} {n : Nat} (v : Vector α n) (i : Fin n) (a : α) : v.setIfInBounds i.val a = v.set i a := by
  ext j hj
  rw [Vector.getElem_setIfInBounds, Vector.getElem_set]

/-- An index of a table, as its byte. -/
theorem indexByte_toNat {n : Nat} (i : Fin n) (small : n ≤ 256) : (BitVec.ofNat 8 i.val : Byte).toNat = i.val := by
  rw [BitVec.toNat_ofNat]
  exact Nat.mod_eq_of_lt (Nat.lt_of_lt_of_le i.isLt small)

/-- A write that passes every check of R184 is not refused. -/
theorem State.writeRefusal_accepted {s : State} {table index : Nat} {c : Bytes} (known : table ≤ 9) (held : index ≤ maxIndex table)
    (long : c.length = contentsLength table) (unlocked : ¬ s.Locked table) (unused : ¬ s.InUse table index)
    (fields : contentsInRange table c = true) (consistent : s.contentsConsistent table c = true) :
    s.writeRefusal table index c = none := by
  rw [← State.writeLocked_iff] at unlocked
  rw [← State.writeInUse_iff] at unused
  rw [State.writeRefusal, if_neg (Nat.not_lt.2 known), if_neg (Nat.not_lt.2 held), if_neg (not_not.2 long), if_neg unlocked,
    if_neg unused, fields, consistent]
  rfl

/-- Cycles that do not run lock nothing (R187). -/
theorem State.not_locked_of_idle {s : State} (idle : s.fsc.state = .stopped ∨ s.fsc.state = .halted) (table : Nat) :
    ¬ s.Locked table := by
  rcases idle with state | state <;> simp [State.Locked, state]

/-- WRITE_TABLE runs the write of its table and index. -/
theorem State.runCommand_write (s : State) (t : PartTime) (h : CommandHeader) (table index : Byte) (c : Bytes) (cut : Cut) :
    s.runCommand t (commandFrame h 2 ([table, index] ++ c)) cut
      = ⟨(s.writeTable t table.toNat index.toNat c).1, (s.writeTable t table.toNat index.toNat c).2, []⟩ := by
  have atTable : field ([table, index] ++ c) 0 1 = table.toNat := by simp [field, bytesToNat]
  have atIndex : field ([table, index] ++ c) 1 1 = index.toNat := by simp [field, bytesToNat]
  rw [← atTable, ← atIndex]
  rfl

/-- A grade part stored, entry by entry: part 0 clears the two others of its curve (R193). -/
theorem storeGrade_eq (grades : Vector (Option GradePart) 24) (i : Fin 24) (g : GradePart) :
    storeGrade grades i.val g = Vector.ofFn fun j : Fin 24 =>
      if j = i then some g else if i.val % 3 = 0 ∧ j.val / 3 = i.val / 3 then none else grades[j] := by
  ext1 j hj
  rw [Vector.getElem_ofFn, storeGrade]
  simp only [Fin.ext_iff, Fin.getElem_fin]
  by_cases zero : i.val % 3 = 0
  · have cleared : j / 3 = i.val / 3 ↔ j = i.val ∨ j = i.val + 1 ∨ j = i.val + 2 := by omega
    rw [if_pos zero]
    simp only [Vector.getElem_setIfInBounds, zero, true_and, cleared]
    by_cases self : j = i.val
    · simp [self]
    · simp only [self, Ne.symm self, if_false, false_or, @eq_comm _ j]
      split_ifs <;> simp_all
  · rw [if_neg zero, Vector.getElem_setIfInBounds]
    simp [zero, eq_comm]

/-- A stopped timer is armed for the interval in force, and an armed one stays (R58). -/
theorem State.setupWritten_eq (s : State) (t : PartTime) :
    s.setupWritten t = s.setHcu { s.hcu with timer := s.hcu.timer.or (armTimer t s.calSetup.interval) } := by
  unfold State.setupWritten
  cases timer : s.hcu.timer with
  | none => rfl
  | some x =>
    change s = s.setHcu { s.hcu with timer := some x }
    rw [← timer]
    rfl

section
variable {s : State} {h : CommandHeader} (takes : s.takes h = true) (t : PartTime)
include takes

/-- WRITE_TABLE, taken and accepted: the answer is DONE, and the step leaves what the write and its effects give. -/
theorem exec_writeTable_accepted {u : State} (ready : u.ready = s.ready) {table index : Byte} {c : Bytes}
    (accepted : s.writeRefusal table.toNat index.toNat c = none)
    (effects : ((s.begun t).setTst (s.tst.store table.toNat index.toNat c)).writeEffects t table.toNat index.toNat = u.begun t) :
    exec (.writeTable t h ([table, index] ++ c)) s = .next (u.withAnswer t h 0 []) := by
  have written : (s.begun t).writeTable t table.toNat index.toNat c = (u.begun t, .done) := by
    rw [State.writeTable, show (s.begun t).writeRefusal table.toNat index.toNat c = none from accepted, ← effects]
    rfl
  exact congrArg _ (State.commandArrives_answered takes (status := .done) ready
    ((State.runCommand_write (s.begun t) t h table index c Cut.nothing).trans (by rw [written])))

/-- A write of a table that no other block follows: TST alone changes. -/
theorem exec_writeTable_stores {table index : Byte} {c : Bytes} {tst : Tst} (plain : table.toNat ≠ 0 ∧ table.toNat ≠ 7)
    (accepted : s.writeRefusal table.toNat index.toNat c = none) (stored : s.tst.store table.toNat index.toNat c = tst) :
    exec (.writeTable t h ([table, index] ++ c)) s = .next (({ s with tst := tst } : State).withAnswer t h 0 []) := by
  refine exec_writeTable_accepted takes t (u := { s with tst := tst }) rfl accepted ?_
  rw [stored]
  unfold State.writeEffects
  split
  · exact absurd ‹_› plain.1
  · exact absurd ‹_› plain.2
  · rfl

/-! ### Products and grade curves (R186, R191 to R193) -/

theorem exec_writeProduct {i : Fin 16} {p : Product} (inRange : p.inRange = true) (gate : p.wallLo < p.wallHi)
    (wall : p.nominalWall ≤ 65535) (lower : p.lowerTol ≤ 65535) (upper : p.upperTol ≤ 65535)
    (unbound : ∀ slot c, s.ctx slot = some c → c.flags.noProduct = true ∨ c.product ≠ i) :
    exec (.writeTable t h ([2, BitVec.ofNat 8 i.val] ++ productBytes p)) s = .next
      (({ s with tst := { s.tst with products := s.tst.products.set i (some p) } } : State).withAnswer t h 0 []) := by
  have read := readProduct_bytes inRange wall lower upper
  have unused : ¬ s.InUse 2 i.val := by
    simp only [State.InUse]
    rintro (⟨bad, -⟩ | ⟨-, slot, c, live, bound, product⟩ | ⟨bad, -⟩)
    · simp at bad
    · rcases unbound slot c live with free | other
      · simp [free] at bound
      · exact other (Fin.ext product)
    · simp at bad
  refine exec_writeTable_stores takes t (by decide) ?accepted ?stored
  case accepted =>
    rw [indexByte_toNat i (by decide)]
    refine State.writeRefusal_accepted (table := 2) (by decide) (Nat.le_of_lt_succ i.isLt) rfl (by simp [State.Locked]) unused ?_ ?_
    · rw [contentsInRange, read, inRange]
    · rw [State.contentsConsistent, read]
      exact decide_eq_true gate
  case stored =>
    rw [indexByte_toNat i (by decide)]
    change { s.tst with products := s.tst.products.setIfInBounds i.val (some (readProduct (productBytes p))) } = _
    rw [read, setIfInBounds_eq_set]

theorem exec_writeGradePart {i : Fin 24} {g : GradePart}
    (inRange : ∀ x ∈ g.toList, 30000 ≤ x.velocity ∧ x.velocity ≤ 65000 ∧ 49152 ≤ x.shrink ∧ x.shrink ≤ 65535)
    (unbound : ∀ slot c, s.ctx slot = some c →
      c.flags.noProduct = true ∨ c.flags.noGrade = true ∨ ∀ curve, c.grade = some curve → curve.val ≠ i.val / 3) :
    exec (.writeTable t h ([3, BitVec.ofNat 8 i.val] ++ gradePartBytes g)) s = .next
      (({ s with tst := { s.tst with
          grades := Vector.ofFn fun j : Fin 24 =>
            if j = i then some g else if i.val % 3 = 0 ∧ j.val / 3 = i.val / 3 then none else s.tst.grades[j] } } : State).withAnswer
        t h 0 []) := by
  have fields : GradePart.inRange g = true := List.all_eq_true.2 fun x mem => x.inRange_iff.2 (inRange x mem)
  have read := readGradePart_bytes fields
  have unused : ¬ s.InUse 3 i.val := by
    simp only [State.InUse]
    rintro (⟨bad, -⟩ | ⟨bad, -⟩ | ⟨-, slot, c, curve, live, product, complete, grade, same⟩)
    · simp at bad
    · simp at bad
    · rcases unbound slot c live with free | free | other
      · simp [free] at product
      · simp [free] at complete
      · exact other curve grade same
  refine exec_writeTable_stores takes t (by decide) ?accepted ?stored
  case accepted =>
    rw [indexByte_toNat i (by decide)]
    refine State.writeRefusal_accepted (table := 3) (by decide) (Nat.le_of_lt_succ i.isLt) (gradePartBytes_length g) (by simp [State.Locked])
      unused ?_ rfl
    rw [contentsInRange, read, fields]
  case stored =>
    rw [indexByte_toNat i (by decide)]
    change { s.tst with grades := storeGrade s.tst.grades i.val (readGradePart (gradePartBytes g)) } = _
    rw [read, storeGrade_eq]

/-! ### The calibration setup (R58, R196) -/

theorem exec_writeCalSetup {x : CalSetup} (interval : x.interval ≤ 3600) :
    exec (.writeTable t h ([7, 0] ++ calSetupBytes x)) s = .next
      (({ s with
        tst := { s.tst with calSetup := some x }
        hcu := { s.hcu with timer := s.hcu.timer.or (if x.interval = 0 then none else some ⟨t, x.interval⟩) } } : State).withAnswer
        t h 0 []) := by
  have read := readCalSetup_bytes interval
  refine exec_writeTable_accepted takes t (u := { s with
    tst := { s.tst with calSetup := some x }
    hcu := { s.hcu with timer := s.hcu.timer.or (if x.interval = 0 then none else some ⟨t, x.interval⟩) } }) rfl ?accepted ?effects
  case accepted =>
    refine State.writeRefusal_accepted (table := 7) (by decide) (Nat.zero_le _) rfl (by simp [State.Locked]) (by simp [State.InUse]) ?_ rfl
    rw [contentsInRange, read, within_iff]
    exact ⟨Nat.zero_le _, interval⟩
  case effects =>
    change ((s.begun t).setTst { s.tst with calSetup := some (readCalSetup (calSetupBytes x)) }).setupWritten t = _
    rw [read, State.setupWritten_eq]
    rfl

/-! ### The other six tables (R187, R190, R194 to R196) -/

theorem exec_writeTracking {x : Tracking} (free0 : s.ctx 0 = none) (free1 : s.ctx 1 = none) (inRange : x.inRange = true)
    (clear : ∀ i, s.enabled i = true → x.gateDist < (s.headEntry i).distance ∧ (s.headEntry i).distance ≤ x.gateDist + 8000) :
    exec (.writeTable t h ([1, 0] ++ trackingBytes x)) s = .next
      (({ s with tst := { s.tst with tracking := some x } } : State).withAnswer t h 0 []) := by
  have read := readTracking_bytes inRange
  have unused : ¬ s.InUse 1 0 := by
    simp [State.InUse, Fin.exists_fin_two, free0, free1]
  refine exec_writeTable_stores takes t (by decide) ?accepted ?stored
  case accepted =>
    refine State.writeRefusal_accepted (table := 1) (by decide) (Nat.zero_le _) rfl (by simp [State.Locked]) unused ?_ ?_
    · rw [contentsInRange, read, inRange]
    · simp only [State.contentsConsistent, read, List.all_eq_true, Bool.or_eq_true, Bool.not_eq_true', standsClear_iff]
      intro i _
      cases on : s.enabled i with
      | false => exact .inl rfl
      | true => exact .inr (clear i on)
  case stored =>
    change { s.tst with tracking := some (readTracking (trackingBytes x)) } = _
    rw [read]

theorem exec_writeHeader {length : Byte} (idle : s.fsc.state = .stopped ∨ s.fsc.state = .halted) (least : 1 ≤ length.toNat)
    (most : length.toNat ≤ 48) :
    exec (.writeTable t h ([4, 0] ++ [length])) s = .next
      (({ s with tst := { s.tst with header := some length.toNat } } : State).withAnswer t h 0 []) := by
  refine exec_writeTable_stores takes t (by decide) ?accepted ?stored
  case accepted =>
    refine State.writeRefusal_accepted (table := 4) (by decide) (Nat.zero_le _) rfl (State.not_locked_of_idle idle 4) (by simp [State.InUse]) ?_ rfl
    rw [contentsInRange, field_byte, within_iff]
    exact ⟨least, most⟩
  case stored =>
    change { s.tst with header := some (field [length] 0 1) } = _
    rw [field_byte]

theorem exec_writeListPart {i : Fin 6} {x : ListPart} (idle : s.fsc.state = .stopped ∨ s.fsc.state = .halted)
    (fits : ∀ e ∈ x.toList, e.Fits) :
    exec (.writeTable t h ([5, BitVec.ofNat 8 i.val] ++ listPartBytes x)) s = .next
      (({ s with tst := { s.tst with lists := s.tst.lists.set i (some x) } } : State).withAnswer t h 0 []) := by
  refine exec_writeTable_stores takes t (by decide) ?accepted ?stored
  case accepted =>
    rw [indexByte_toNat i (by decide)]
    refine State.writeRefusal_accepted (table := 5) (by decide) (Nat.le_of_lt_succ i.isLt) (listPartBytes_length x)
      (State.not_locked_of_idle idle 5) (by simp [State.InUse]) ?_ rfl
    refine List.all_eq_true.2 fun j mem => ?_
    rw [readPartEntry_bytes fits j (List.mem_range.1 mem), Option.isSome_some]
  case stored =>
    rw [indexByte_toNat i (by decide)]
    change { s.tst with lists := s.tst.lists.setIfInBounds i.val (some (readListPart (listPartBytes x))) } = _
    rw [readListPart_bytes fits, setIfInBounds_eq_set]

theorem exec_writeProfile {i : Fin 4} {x : Profile} (idle : s.fsc.state = .stopped ∨ s.fsc.state = .halted)
    (measure : 20 ≤ x.measure ∧ x.measure ≤ 5000) (calibrate : 20 ≤ x.calibrate ∧ x.calibrate ≤ 5000) :
    exec (.writeTable t h ([6, BitVec.ofNat 8 i.val] ++ profileBytes x)) s = .next
      (({ s with tst := { s.tst with profiles := s.tst.profiles.set i (some x) } } : State).withAnswer t h 0 []) := by
  have read := readProfile_bytes measure.2 calibrate.2
  refine exec_writeTable_stores takes t (by decide) ?accepted ?stored
  case accepted =>
    rw [indexByte_toNat i (by decide)]
    refine State.writeRefusal_accepted (table := 6) (by decide) (Nat.le_of_lt_succ i.isLt) rfl
      (State.not_locked_of_idle idle 6) (by simp [State.InUse]) ?_ rfl
    rw [contentsInRange, read, Bool.and_eq_true, within_iff, within_iff]
    exact ⟨measure, calibrate⟩
  case stored =>
    rw [indexByte_toNat i (by decide)]
    change { s.tst with profiles := s.tst.profiles.setIfInBounds i.val (some (readProfile (profileBytes x))) } = _
    rw [read, setIfInBounds_eq_set]

theorem exec_writePattern (x : BitVec 16) :
    exec (.writeTable t h ([8, 0] ++ be16 x.toNat)) s = .next
      (({ s with tst := { s.tst with pattern := some x } } : State).withAnswer t h 0 []) := by
  have read : field (be16 x.toNat) 0 2 = x.toNat := bytesToNat_be16 x.toNat x.isLt
  refine exec_writeTable_stores takes t (by decide) ?accepted ?stored
  case accepted =>
    exact State.writeRefusal_accepted (table := 8) (by decide) (Nat.zero_le _) rfl (by simp [State.Locked]) (by simp [State.InUse]) rfl rfl
  case stored =>
    change { s.tst with pattern := some (BitVec.ofNat 16 (field (be16 x.toNat) 0 2)) } = _
    rw [read, BitVec.ofNat_toNat, BitVec.setWidth_eq]

theorem exec_writeShare {share : Byte} (least : 1 ≤ share.toNat) (most : share.toNat ≤ 15) :
    exec (.writeTable t h ([9, 0] ++ [share])) s = .next
      (({ s with tst := { s.tst with share := some share.toNat } } : State).withAnswer t h 0 []) := by
  refine exec_writeTable_stores takes t (by decide) ?accepted ?stored
  case accepted =>
    refine State.writeRefusal_accepted (table := 9) (by decide) (Nat.zero_le _) rfl (by simp [State.Locked]) (by simp [State.InUse]) ?_ rfl
    change within 1 15 (field [share] 0 1) = true
    rw [field_byte, within_iff]
    exact ⟨least, most⟩
  case stored =>
    change { s.tst with share := some (field [share] 0 1) } = _
    rw [field_byte]

end

/-- Settles O8: table by table, the write passes the checks of R184 and the entry that it stores is read back from its bytes. -/
theorem writeProductStores : Obligations.WriteProductStores := by
  intro t h s takes
  refine ⟨?product, ?grade, ?setup, ?tracking, ?header, ?list, ?profile, ?pattern, ?share⟩
  case product => exact fun i p => exec_writeProduct takes t
  case grade => exact fun i g => exec_writeGradePart takes t
  case setup => exact fun x => exec_writeCalSetup takes t
  case tracking => exact fun x => exec_writeTracking takes t
  case header => exact fun length => exec_writeHeader takes t
  case list => exact fun i x => exec_writeListPart takes t
  case profile =>
    exact fun i x idle leastMeasure mostMeasure leastCalibrate mostCalibrate =>
      exec_writeProfile takes t idle ⟨leastMeasure, mostMeasure⟩ ⟨leastCalibrate, mostCalibrate⟩
  case pattern => exact exec_writePattern takes t
  case share => exact fun share => exec_writeShare takes t

end Sys2Proof.Machine
end

section
/-! PROOFS. The GATE_A rise (R52, R75 to R78, R141, R144): the rows that refuse it, the shell that enters, and the room made at a full queue. -/

namespace Sys2Proof.Machine

/-! ### The rows of a rise (R77) -/

section
variable {s : State} {date : PartTime} {m : Motion} {clamped : Bool}

/-- Some context is ENTERING or MEASURING. -/
theorem State.anyBeforeTail_iff (s : State) :
    s.anyCtx ShellContext.beforeTail = true ↔ ∃ i c, s.ctx i = some c ∧ (c.phase = .entering ∨ c.phase = .measuring) := by
  simp [State.anyCtx_iff, ShellContext.beforeTail]

theorem State.freeSlot_some (free : s.ctx 0 = none ∨ s.ctx 1 = none) : s.freeSlot = some (if s.ctx 0 = none then 0 else 1) := by
  unfold State.freeSlot
  cases first : s.ctx 0 with
  | none => rfl
  | some c =>
    have second : s.ctx 1 = none := free.resolve_left (by simp [first])
    simp [second]

theorem State.freeSlot_none (full : ¬ (s.ctx 0 = none ∨ s.ctx 1 = none)) : s.freeSlot = none := by
  obtain ⟨first, second⟩ := not_or.1 full
  simp [State.freeSlot, first, second]

theorem State.gateARise_unconfigured (unloaded : s.tst.tracking = none) :
    s.gateARise date m clamped = s.report .gateUnconfigured .gates date 1 := by
  rw [State.gateARise, unloaded]
  rfl

theorem State.gateARise_beforeTail (loaded : s.tst.tracking ≠ none) (before : s.anyCtx ShellContext.beforeTail = true) :
    s.gateARise date m clamped = s.report .gateSequence .gates date 1 := by
  rw [State.gateARise, if_neg (by simpa using loaded), if_pos before]
  rfl

theorem State.gateARise_noSlot (loaded : s.tst.tracking ≠ none) (after : ¬ s.anyCtx ShellContext.beforeTail = true)
    (full : ¬ (s.ctx 0 = none ∨ s.ctx 1 = none)) : s.gateARise date m clamped = s.report .gateSequence .gates date 1 := by
  rw [State.gateARise, if_neg (by simpa using loaded), if_neg after, State.freeSlot_none full]
  rfl

theorem State.gateARise_enters (loaded : s.tst.tracking ≠ none) (after : ¬ s.anyCtx ShellContext.beforeTail = true) {i : Fin 2}
    (free : s.freeSlot = some i) : s.gateARise date m clamped = s.enterShell i date m clamped := by
  rw [State.gateARise, if_neg (by simpa using loaded), if_neg after, free]

end

/-! ### The context of a new shell (R52, R77, R78) -/

theorem State.someLost_iff (s : State) : s.someLost = true ↔ ∃ h, (s.head h).state = .lost := by
  have mem : ∀ h : Fin 8, h ∈ allHeads := by decide
  simp [State.someLost, mem]

/-- A curve is complete exactly while each of its three parts is loaded (R193). -/
theorem Tst.curveComplete_iff (x : Tst) (curve : Nat) : x.curveComplete curve = true ↔ ∀ n, n < 3 → x.loaded 3 (3 * curve + n) = true := by
  have parts : x.curveComplete curve = (x.loaded 3 (3 * curve + 0) && x.loaded 3 (3 * curve + 1) && x.loaded 3 (3 * curve + 2)) := rfl
  simp only [parts, Bool.and_eq_true, Nat.forall_lt_succ_right, Nat.not_lt_zero, false_imp_iff, implies_true, true_and]

section
variable {s : State} {m : Motion} {clamped : Bool}

/-- A product that is not loaded binds no grade (R78). -/
theorem State.newContext_noProduct (unloaded : s.tst.products[s.mtr.nextProduct] = none) :
    (s.newContext m clamped).grade = none ∧ (s.newContext m clamped).flags.noGrade = false := by
  simp [State.newContext, State.entryFlags, unloaded]

/-- A loaded product binds its grade, with NO_GRADE while a part of that curve is unloaded (R78). -/
theorem State.newContext_product {p : Product} {g : Fin 8} (loaded : s.tst.products[s.mtr.nextProduct] = some p) (grade : p.grade = g.val) :
    (s.newContext m clamped).grade = some g
      ∧ ((s.newContext m clamped).flags.noGrade = true ↔ ∃ n, n < 3 ∧ s.tst.loaded 3 (3 * g.val + n) = false) := by
  have bound : (s.newContext m clamped).grade = some (Fin.ofNat 8 g.val) := by simp [State.newContext, loaded, grade]
  have flag : (s.newContext m clamped).flags.noGrade = !s.tst.curveComplete g.val := by
    simp [State.newContext, State.entryFlags, loaded, grade]
  refine ⟨bound.trans (congrArg some (headAt_val g)), ?_⟩
  rw [flag, Bool.not_eq_true', ← Bool.not_eq_true, Tst.curveComplete_iff]
  simp

/-- The context of a new shell reads the tables, the heads, and of MTR the counter, the last product and the announce queue. -/
theorem State.newContext_congr {d : State} (tst : d.tst = s.tst) (hcu : d.hcu = s.hcu) (counter : d.mtr.shellCounter = s.mtr.shellCounter)
    (product : d.mtr.nextProduct = s.mtr.nextProduct) (announce : d.mtr.announce = s.mtr.announce) :
    d.newContext m clamped = s.newContext m clamped := by
  have lost : d.someLost = s.someLost := by simp only [State.someLost, State.head_of_hcu hcu]
  simp only [State.newContext, State.entryFlags, State.track, tst, counter, product, announce, lost]

end

/-! ### A shell that enters (R75, R141) -/

/-- MTR once a shell has entered in a slot (R75 to R78). -/
def State.mtrEntered (s : State) (i : Fin 2) (m : Motion) (clamped : Bool) : Mtr :=
  { s.mtr with
    contexts     := s.mtr.contexts.set i (some (s.newContext m clamped))
    older        := if (s.ctx (otherSlot i)).isSome then otherSlot i else i
    shellCounter := nextShell s.mtr.shellCounter
    lastProduct  := some s.mtr.nextProduct
    announce     := s.mtr.announce.drop 1 }

/-- RQU with one reservation more (R141). -/
def Rqu.reserved (q : Rqu) : Rqu :=
  { q with reservations := q.reservations + 1 }

section
variable {s : State} {date : PartTime} {m : Motion} {clamped : Bool}

theorem State.reserve_room (room : s.rqu.entries.length + s.rqu.reservations < 64) : s.reserve date = s.setRqu s.rqu.reserved := by
  rw [State.reserve, if_neg (Nat.not_le.2 room)]
  rfl

theorem State.reserve_full (full : 64 ≤ s.rqu.entries.length + s.rqu.reservations) :
    s.reserve date = (s.discardOldest date).setRqu (s.discardOldest date).rqu.reserved := by
  rw [State.reserve, if_pos full]
  rfl

theorem State.enterShell_room (i : Fin 2) (room : s.rqu.entries.length + s.rqu.reservations < 64) :
    s.enterShell i date m clamped = (s.setMtr (s.mtrEntered i m clamped)).setRqu s.rqu.reserved := by
  rw [State.enterShell, State.reserve_room room]
  rfl

theorem State.mtrEntered_ctx {s' : State} {i : Fin 2} (mtr : s'.mtr = s.mtrEntered i m clamped) :
    s'.ctx i = some (s.newContext m clamped) := by
  simp [State.ctx, mtr, State.mtrEntered]

/-- The shell of the other slot stays, and is the older if it is live (R75). -/
theorem State.mtrEntered_other {s' : State} {i j : Fin 2} (mtr : s'.mtr = s.mtrEntered i m clamped) (n : j ≠ i) :
    s'.ctx j = s.ctx j ∧ (s'.mtr.older = j ↔ s.ctx j ≠ none) := by
  have n' : i.val ≠ j.val := fun e => n (Fin.ext e.symm)
  refine ⟨by simp [State.ctx, mtr, State.mtrEntered, Vector.getElem_set_ne _ _ n'], ?_⟩
  have older : s'.mtr.older = if (s.ctx j).isSome then j else i := by
    rw [mtr, State.mtrEntered, otherSlot_eq n]
  rw [older]
  cases s.ctx j with
  | none => simp [Ne.symm n]
  | some c => simp

end

/-! ### A full queue (R144) -/

/-- A function of the contexts maps both slots at once. -/
theorem State.mapCtx_eq (s : State) (f : ShellContext → ShellContext) :
    s.mapCtx f = s.setMtr { s.mtr with contexts := s.mtr.contexts.map (Option.map f) } := by
  have contexts : (s.mapCtx f).mtr.contexts = s.mtr.contexts.map (Option.map f) := by
    ext1 i hi
    rw [Vector.getElem_map]
    exact s.mapCtx_ctx f ⟨i, hi⟩
  rw [← contexts]
  rfl

/-- What the discard of the oldest entry does, as far as a rise reads the state: the entry is gone, and the live contexts change through a
function that keeps their phases. -/
structure DiscardFrame (s d : State) : Prop where
  tst          : d.tst = s.tst
  hcu          : d.hcu = s.hcu
  shellCounter : d.mtr.shellCounter = s.mtr.shellCounter
  lastProduct  : d.mtr.lastProduct = s.mtr.lastProduct
  announce     : d.mtr.announce = s.mtr.announce
  entries      : d.rqu.entries = s.rqu.entries.tail
  reservations : d.rqu.reservations = s.rqu.reservations
  contexts     : ∃ f : ShellContext → ShellContext, (∀ c, (f c).phase = c.phase) ∧ ∀ i, d.ctx i = (s.ctx i).map f

theorem ShellContext.lostReport_phase (shell : Nat) (c : ShellContext) : (c.lostReport shell).phase = c.phase := by
  unfold ShellContext.lostReport
  split_ifs <;> rfl

section
variable {s : State} {date : PartTime} {r : Report} {rest : List Report} (front : s.rqu.entries = r :: rest)
include front

theorem State.discardOldest_shell {x : ShellReport} (shell : r = .shell x) :
    s.discardOldest date = (s.setRqu { s.rqu with entries := rest }).report .resultOverflow .upstream date x.shell := by
  rw [State.discardOldest, front, shell]
  rfl

theorem State.discardOldest_segment {x : SegmentReport} (segment : r = .segment x) :
    s.discardOldest date
      = ((s.setRqu { s.rqu with entries := rest }).report .resultOverflow .upstream date x.shell).mapCtx
          (ShellContext.lostReport x.shell) := by
  rw [State.discardOldest, front, segment]
  rfl

theorem DiscardFrame.reported (detail : Nat) :
    DiscardFrame s ((s.setRqu { s.rqu with entries := rest }).report .resultOverflow .upstream date detail) := by
  have entries : rest = s.rqu.entries.tail := by rw [front, List.tail_cons]
  rcases (s.setRqu { s.rqu with entries := rest }).report_eq .resultOverflow .upstream date detail with e | e <;> rw [e]
  all_goals exact ⟨rfl, rfl, rfl, rfl, rfl, entries, rfl, id, fun _ => rfl, fun i => (Option.map_id_apply).symm⟩

theorem DiscardFrame.discardOldest (date : PartTime) : DiscardFrame s (s.discardOldest date) := by
  cases kind : r with
  | shell x =>
    rw [State.discardOldest_shell front kind]
    exact reported front x.shell
  | segment x =>
    rw [State.discardOldest_segment front kind]
    have told : DiscardFrame s ((s.setRqu { s.rqu with entries := rest }).report .resultOverflow .upstream date x.shell) :=
      reported front x.shell
    obtain ⟨f, phase, contexts⟩ := told.contexts
    exact
      { tst := told.tst
        hcu := told.hcu
        shellCounter := told.shellCounter
        lastProduct := told.lastProduct
        announce := told.announce
        entries := told.entries
        reservations := told.reservations
        contexts := ⟨fun c => (f c).lostReport x.shell, fun c => (ShellContext.lostReport_phase x.shell (f c)).trans (phase c),
          fun i => by rw [State.mapCtx_ctx, contexts, Option.map_map]; rfl⟩ }

end

namespace DiscardFrame
variable {s d : State} (frame : DiscardFrame s d)
include frame

theorem isSome (i : Fin 2) : (d.ctx i).isSome = (s.ctx i).isSome := by
  obtain ⟨f, -, contexts⟩ := frame.contexts
  rw [contexts, Option.isSome_map]

theorem freeSlot : d.freeSlot = s.freeSlot := by
  simp only [State.freeSlot, ← Option.not_isSome, frame.isSome]

theorem beforeTail : d.anyCtx ShellContext.beforeTail = s.anyCtx ShellContext.beforeTail := by
  obtain ⟨f, phase, contexts⟩ := frame.contexts
  have same (c : ShellContext) : (f c).beforeTail = c.beforeTail := by
    rw [ShellContext.beforeTail, ShellContext.beforeTail, phase]
  simp only [State.anyCtx, contexts, Option.any_map, same]

theorem nextProduct : d.mtr.nextProduct = s.mtr.nextProduct := by
  rw [Mtr.nextProduct, Mtr.nextProduct, frame.announce, frame.lastProduct]

end DiscardFrame

section
variable {s : State} {date : PartTime} {m : Motion} {clamped : Bool} {r : Report} {rest : List Report}

/-- A shell that enters at a full queue enters as it would once the oldest entry is gone. -/
theorem State.enterShell_full (front : s.rqu.entries = r :: rest) (full : s.rqu.entries.length + s.rqu.reservations = 64) (i : Fin 2) :
    (s.discardOldest date).enterShell i date m clamped = s.enterShell i date m clamped := by
  have frame : DiscardFrame s (s.discardOldest date) := .discardOldest front date
  have room : (s.discardOldest date).rqu.entries.length + (s.discardOldest date).rqu.reservations < 64 := by
    rw [frame.entries, frame.reservations, front, List.tail_cons]
    rw [front, List.length_cons] at full
    omega
  have context : (s.discardOldest date).newContext m clamped = s.newContext m clamped :=
    State.newContext_congr frame.tst frame.hcu frame.shellCounter frame.nextProduct frame.announce
  rw [State.enterShell, State.enterShell, State.reserve_room room, State.reserve_full (Nat.le_of_eq full.symm)]
  rw [context, frame.isSome, frame.shellCounter, frame.nextProduct, frame.announce]

/-- At a full queue the oldest entry is discarded first, and the rise then goes on (R144). -/
theorem State.gateARise_full (loaded : s.tst.tracking ≠ none) (after : ¬ s.anyCtx ShellContext.beforeTail = true)
    (free : s.ctx 0 = none ∨ s.ctx 1 = none) (front : s.rqu.entries = r :: rest)
    (full : s.rqu.entries.length + s.rqu.reservations = 64) :
    s.gateARise date m clamped = (s.discardOldest date).gateARise date m clamped := by
  have frame : DiscardFrame s (s.discardOldest date) := .discardOldest front date
  have slot := State.freeSlot_some free
  rw [State.gateARise_enters loaded after slot, ← State.enterShell_full front full]
  exact (State.gateARise_enters (by rwa [frame.tst]) (by rwa [frame.beforeTail]) (frame.freeSlot.trans slot)).symm

end

/-- Settles O47: the refused rows, the entry with room, and a full queue, where the rise is that of the state without its oldest entry. -/
theorem gateARiseEntersShell : Obligations.GateARiseEntersShell := by
  intro s date m clamped beforeTail free s'
  have after_iff : s.anyCtx ShellContext.beforeTail = true ↔ beforeTail := s.anyBeforeTail_iff
  refine ⟨State.gateARise_unconfigured, fun loaded refused => ?refused, fun x tracking after isFree room => ?enters,
    fun r rest loaded after isFree front full => ?full⟩
  case refused =>
    by_cases before : s.anyCtx ShellContext.beforeTail = true
    · exact State.gateARise_beforeTail loaded before
    · exact State.gateARise_noSlot loaded before (refused.resolve_left fun b => before (after_iff.2 b))
  case enters =>
    intro slot
    have entered : s' = (s.setMtr (s.mtrEntered slot m clamped)).setRqu s.rqu.reserved :=
      (State.gateARise_enters (by simp [tracking]) (fun b => after (after_iff.1 b)) (State.freeSlot_some isFree)).trans
        (State.enterShell_room slot room)
    have mtr : s'.mtr = s.mtrEntered slot m clamped := congrArg State.mtr entered
    refine ⟨⟨s.newContext m clamped, State.mtrEntered_ctx mtr, rfl, rfl, rfl, rfl, ?scale, rfl, rfl, rfl, rfl, rfl, rfl, rfl, rfl, rfl, rfl,
      s.someLost_iff, rfl, rfl, State.newContext_noProduct, fun p g => State.newContext_product, congrArg Mtr.lastProduct mtr⟩,
      fun i n => State.mtrEntered_other mtr n, congrArg Mtr.shellCounter mtr, congrArg Mtr.announce mtr, by rw [mtr]; rfl,
      by rw [mtr]; rfl, by rw [mtr]; rfl, ?frame⟩
    case scale =>
      change s.track.nominal = x.nominal
      rw [State.track, tracking, Option.getD_some]
    case frame =>
      rw [mtr, entered]
      rfl
  case full =>
    have goesOn : s' = (s.discardOldest date).gateARise date m clamped :=
      State.gateARise_full loaded (fun b => after (after_iff.1 b)) isFree front full
    refine ⟨fun x shell => ?_, fun x segment => ?_⟩
    · rw [goesOn, State.discardOldest_shell front shell]
      rfl
    · rw [goesOn, State.discardOldest_segment front segment, State.mapCtx_eq]
      rfl

end Sys2Proof.Machine
end

section
/-! PROOFS. What one step can do to the queues, the shell contexts and the line chain: every step is a run of moves, and then the choice of an
idle upstream transmitter. -/

namespace Sys2Proof.Machine

/-! ### Moves -/

/-- What a change leaves alone that touches no queue, no shell context, no claimant and no frame. -/
structure Quiet (s s' : State) : Prop where
  history      : s'.mtr.history = s.mtr.history
  contexts     : s'.mtr.contexts = s.mtr.contexts
  shellCounter : s'.mtr.shellCounter = s.mtr.shellCounter
  announce     : s'.mtr.announce = s.mtr.announce
  rsq          : s'.rsq = s.rsq
  wmb          : s'.wmb = s.wmb
  rqu          : s'.rqu = s.rqu
  address      : s'.lcp.address = s.lcp.address
  down         : s'.lcp.down = s.lcp.down
  up           : s'.lcp.up = s.lcp.up
  slot         : s'.lcp.slot = s.lcp.slot
  upTx         : s'.lcp.upTx = s.lcp.upTx
  downTx       : s'.lcp.downTx = s.lcp.downTx
  capture      : s'.cmu.capture = s.cmu.capture
  more         : s'.cmu.more = s.cmu.more
  ready        : s'.ready = s.ready

/-- The context goes over into another that is lawful if it is, and that stands before its tail only if it does (R75, R77). -/
def ShellContext.Goes (c c' : ShellContext) : Prop :=
  (c.Lawful → c'.Lawful) ∧ (c'.beforeTail = true → c.beforeTail = true)

/-- The keys of the open segments (R107). -/
def Wmb.keys (x : Wmb) : List (Nat × Nat) :=
  x.window.map fun r => (r.shell, r.index)

/-- The result queue without its oldest entry if it is full, and as it is otherwise (R144). -/
def Rqu.entriesWithRoom (q : Rqu) : List Report :=
  if 64 ≤ q.entries.length + q.reservations then q.entries.tail else q.entries

/-- A context enters in a slot with its reservation, room having been made for it (R77, R141, R144). -/
def State.withShell (s : State) (i : Fin 2) (c : ShellContext) (older : Fin 2) (product : Option (Fin 16)) : State :=
  (s.setMtr { s.mtr with
    contexts     := s.mtr.contexts.set i (some c)
    older        := older
    shellCounter := nextShell s.mtr.shellCounter
    lastProduct  := product
    announce     := s.mtr.announce.drop 1 }).setRqu
  { s.rqu with entries := s.rqu.entriesWithRoom, reservations := s.rqu.reservations + 1 }

/-- One change that the laws of capacity and ownership speak of, with what holds where it is made. -/
inductive Move : State → State → Prop
  | quiet {s s' : State} (same : Quiet s s') : Move s s'
  | notice (s : State) (n : Notices) : Move s ((s.setRqu { s.rqu with notices := n }).claim .notices)
  | capture (s : State) (c : Cmu) (held : c.more = true → c.capture.isSome = true) : Move s (s.setCmu c)
  | sample (s : State) (x : Sample) (newest : ∀ n, s.mtr.history.getLast? = some n → earlier n.tau x.tau = true) :
      Move s (s.setMtr { s.mtr with history := pushSample s.mtr.history x })
  | announced (s : State) (p : Fin 16) (room : s.mtr.announce.length < 4) :
      Move s (s.setMtr { s.mtr with announce := s.mtr.announce ++ [p] })
  | shotHeld (s : State) (x : Shot) (room : s.rsq.shots < 60) (new : s.rsq.holdsDuplicate x = false) : Move s (s.hold (.shot x))
  | gateHeld (s : State) (g : GateEdge) (room : s.rsq.gates < 4) : Move s (s.hold (.gate g))
  | itemTaken (s : State) (i : Item) (rest : List Item) (front : s.rsq.items = i :: rest) : Move s (s.setRsq ⟨rest⟩)
  | context (s : State) (i : Fin 2) (c c' : ShellContext) (live : s.ctx i = some c) (goes : c.Goes c') : Move s (s.setCtx i (some c'))
  | shellEnters (s : State) (i : Fin 2) (c : ShellContext) (older : Fin 2) (product : Option (Fin 16)) (free : s.ctx i = none)
      (alone : s.anyCtx ShellContext.beforeTail = false) (phase : c.phase = .entering) (shell : c.shell = s.mtr.shellCounter)
      (tail : c.encTail = none ∧ c.length = none) : Move s (s.withShell i c older product)
  | shellEnds (s : State) (i : Fin 2) (c : ShellContext) (r : ShellReport) (live : s.ctx i = some c) :
      Move s ((s.queueShellReport r).setCtx i none)
  | window (s : State) (w : Wmb) (kept : w.keys.Sublist s.wmb.keys) : Move s (s.setWmb w)
  | segmentOpens (s : State) (r : OpenSegment) (room : s.wmb.window.length < 12) (new : (r.shell, r.index) ∉ s.wmb.keys) :
      Move s (s.setWmb ⟨s.wmb.window ++ [r]⟩)
  | segmentReplaces (s : State) (v r : OpenSegment) (victim : v ∈ s.wmb.window) (new : (r.shell, r.index) ∉ s.wmb.keys) :
      Move s (s.setWmb ⟨(s.wmb.window.filter fun x => !x.hasKey v.shell v.index) ++ [r]⟩)
  | segmentOffered (s : State) (r : SegmentReport) (accepted : s.rqu.refuses = false) :
      Move s ((s.setRqu { s.rqu with entries := s.rqu.entries ++ [.segment r] }).claim .results)
  | entersDown (s : State) (f : LineFrame) (room : s.lcp.down.length < 8) :
      Move s ((s.setLcp { s.lcp with down := s.lcp.down ++ [f] }).takeDown)
  | entersUp (s : State) (f : LineFrame) (room : s.lcp.up.length < 8) :
      Move s ((s.setLcp { s.lcp with up := s.lcp.up ++ [f] }).claim .forwarded)
  | answers (s : State) (f : LineFrame) : Move s ((s.setLcp { s.lcp with slot := some f }).claim .answer)
  | readdressed (s : State) (a : Byte) (own : a.toNat ≤ 253) : Move s (s.setLcp { s.lcp with address := a })
  | downFree (s : State) : Move s s.downstreamFree
  | upFree (s : State) : Move s (s.setLcp { s.lcp with upTx := none }).arbitrate
  | restarts (s : State) (t : PartTime) (cut : Cut) : Move s (s.restart t cut)
  | coldResets (s : State) (cut : Cut) : Move s (s.coldReset cut)

/-- A run of moves. -/
def Moves (s s' : State) : Prop :=
  Relation.ReflTransGen Move s s'

namespace Moves

theorem refl (s : State) : Moves s s :=
  Relation.ReflTransGen.refl

theorem trans {a b c : State} (x : Moves a b) (y : Moves b c) : Moves a c :=
  Relation.ReflTransGen.trans x y

theorem of_move {s s' : State} (x : Move s s') : Moves s s' :=
  Relation.ReflTransGen.single x

theorem quiet {s s' : State} (same : Quiet s s') : Moves s s' :=
  of_move (.quiet same)

/-! ### Blocks that no queue and no context belongs to -/

theorem setTime (s : State) (t : PartTime) : Moves s (s.setTime t) :=
  quiet (by constructor <;> rfl)

theorem setPending (s : State) (q : List Instr) : Moves s (s.setPending q) :=
  quiet (by constructor <;> rfl)

theorem setFree (s : State) (n : Nat) : Moves s (s.setFree n) :=
  quiet (by constructor <;> rfl)

theorem setHlp (s : State) (x : Hlp) : Moves s (s.setHlp x) :=
  quiet (by constructor <;> rfl)

theorem setFsc (s : State) (x : Fsc) : Moves s (s.setFsc x) :=
  quiet (by constructor <;> rfl)

theorem setHcu (s : State) (x : Hcu) : Moves s (s.setHcu x) :=
  quiet (by constructor <;> rfl)

theorem setTst (s : State) (x : Tst) : Moves s (s.setTst x) :=
  quiet (by constructor <;> rfl)

theorem setHead (s : State) (h : Fin 8) (r : HeadRecord) : Moves s (s.setHead h r) :=
  setHcu s _

theorem setFilter (s : State) (line : GateLine) (f : GateFilter) : Moves s (s.setFilter line f) := by
  cases line <;> exact quiet (by constructor <;> rfl)

/-! ### Notices, captures and the level (R45, R146, R173) -/

theorem report (s : State) (kind : CaptureKind) (source : CaptureSource) (time : PartTime) (detail : Nat) :
    Moves s (s.report kind source time detail) := by
  unfold State.report
  split
  · exact (of_move (.capture s _ fun _ => rfl)).trans (of_move (.notice _ _))
  · rename_i held
    exact of_move (.capture s _ fun _ => by rw [held]; rfl)

theorem recomputeLevel (s : State) : Moves s s.recomputeLevel := by
  unfold State.recomputeLevel
  split_ifs
  · exact refl s
  · exact (setFsc s _).trans (of_move (.notice _ _))

/-! ### Shell contexts (R75) -/

theorem setCtx_live (s : State) {i : Fin 2} {c c' : ShellContext} (live : s.ctx i = some c) (goes : c.Goes c') :
    Moves s (s.setCtx i (some c')) :=
  of_move (.context s i c c' live goes)

theorem setCtx_same (s : State) (i : Fin 2) : s.setCtx i (s.ctx i) = s := by
  simp only [State.setCtx, State.ctx, Fin.getElem_fin, Vector.set_getElem_self]
  rfl

theorem modCtx (s : State) (i : Fin 2) {f : ShellContext → ShellContext} (goes : ∀ c, s.ctx i = some c → c.Goes (f c)) :
    Moves s (s.modCtx i f) := by
  unfold State.modCtx
  cases live : s.ctx i with
  | none =>
    rw [Option.map_none, ← live, setCtx_same]
    exact refl s
  | some c => exact setCtx_live s live (goes c live)

end Moves

/-- A context that keeps its phase, its shell number, its tail and its length goes over into the new one. -/
theorem ShellContext.Goes.of_kept {c c' : ShellContext} (phase : c'.phase = c.phase) (shell : c'.shell = c.shell)
    (tail : c'.encTail = c.encTail) (length : c'.length = c.length) : c.Goes c' := by
  unfold ShellContext.Goes ShellContext.Lawful ShellContext.beforeTail
  rw [phase, shell, tail, length]
  exact ⟨id, id⟩

namespace Moves

theorem mapCtx (s : State) {f : ShellContext → ShellContext} (goes : ∀ c : ShellContext, c.Goes (f c)) : Moves s (s.mapCtx f) :=
  (modCtx s 0 fun c _ => goes c).trans (modCtx _ 1 fun c _ => goes c)

theorem countReason (s : State) (i : Fin 2) (r : Reason) : Moves s (s.countReason i r) :=
  modCtx s i fun _ _ => .of_kept rfl rfl rfl rfl

theorem degradeAll (s : State) : Moves s s.degradeAll :=
  mapCtx s fun _ => .of_kept rfl rfl rfl rfl

/-! ### The schedule and the heads -/

theorem judgeMiss (s : State) (h : Fin 8) : Moves s (s.judgeMiss h) := by
  unfold State.judgeMiss
  split
  · exact refl s
  · split_ifs
    · exact (((setHead s h _).trans (of_move (.notice _ _))).trans (degradeAll _)).trans (recomputeLevel _)
    · exact refl s
  · split_ifs
    · exact ((setHead s h _).trans (of_move (.notice _ _))).trans (recomputeLevel _)
    · exact refl s

theorem replied (s : State) (h : Fin 8) : Moves s (s.replied h) :=
  (setHead s h _).trans (judgeMiss _ h)

theorem missed (s : State) (h : Fin 8) : Moves s (s.missed h) :=
  (setHead s h _).trans (judgeMiss _ h)

theorem recordOutcome (s : State) (h : Fin 8) (good : Bool) : Moves s (s.recordOutcome h good) :=
  setHead s h _

theorem releaseRequest (s : State) (h : Fin 8) : Moves s (s.releaseRequest h) := by
  unfold State.releaseRequest
  split_ifs
  · exact setHcu s _
  · exact refl s

theorem completeCalibration (s : State) (h : Fin 8) (k : Nat) (cal : CalState) : Moves s (s.completeCalibration h k cal) := by
  have recorded : Moves s (((s.setHead h { s.head h with k := k, cal := cal }).recordOutcome h (cal != .failed)).releaseRequest h) :=
    ((setHead s h _).trans (recordOutcome _ h _)).trans (releaseRequest _ h)
  unfold State.completeCalibration
  dsimp only
  split_ifs
  · exact recorded.trans (of_move (.notice _ _))
  · exact recorded

theorem recordMiss (s : State) (h : Fin 8) (kind : FireKind) : Moves s (s.recordMiss h kind) := by
  cases kind with
  | measure => exact (missed s h).trans (recordOutcome _ h false)
  | calibrate => exact (missed s h).trans (completeCalibration _ h _ .failed)

theorem timerExpiry (s : State) : Moves s s.timerExpiry := by
  unfold State.timerExpiry
  split
  · exact refl s
  · rename_i x _
    have requested : Moves (s.setTime x.expiry) (s.setTime x.expiry).timerRequest := by
      unfold State.timerRequest
      split
      · exact of_move (.notice _ _)
      · exact setHcu _ _
    exact ((setTime s _).trans requested).trans (setHcu _ _)

theorem setupWritten (s : State) (t : PartTime) : Moves s (s.setupWritten t) := by
  unfold State.setupWritten
  split
  · exact refl s
  · exact setHcu s _

theorem headWritten (s : State) (h : Fin 8) : Moves s (s.headWritten h) := by
  have written : Moves s (s.headStateWritten h) := by
    unfold State.headStateWritten
    split
    · exact setHead s h _
    · exact refl s
    · exact refl s
    · exact refl s
    · exact (setHead s h _).trans (releaseRequest _ h)
    · exact (setHead s h _).trans (releaseRequest _ h)
  exact (written.trans (setHead _ h _)).trans (recomputeLevel _)

theorem modTally (s : State) (round : Nat) (f : Tally → Tally) : Moves s (s.modTally round f) :=
  setFsc s _

theorem resolveRound (s : State) (round : Nat) : Moves s (s.resolveRound round) := by
  unfold State.resolveRound
  split
  · exact refl s
  · split_ifs
    · exact (setFsc s _).trans (recomputeLevel _)
    · exact refl s

theorem tallyResolved (s : State) (round : Nat) (isMiss : Bool) : Moves s (s.tallyResolved round isMiss) :=
  (modTally s round _).trans (resolveRound _ round)

theorem endRound (s : State) : Moves s s.endRound :=
  (modTally s _ _).trans (resolveRound _ _)

theorem beginCycle (s : State) (count : Nat) (t : PartTime) : Moves s (s.beginCycle count t) :=
  (setFsc s _).trans (setHlp _ _)

theorem startSchedule (s : State) (t : PartTime) : Moves s (s.startSchedule t).1 := by
  have validated : Moves s (s.validateAndRun t).1 := by
    unfold State.validateAndRun
    split
    · exact ((setFsc s _).trans (of_move (.notice _ _))).trans (recomputeLevel _)
    · exact (((setFsc s _).trans (setFsc _ _)).trans (beginCycle _ 0 t)).trans (recomputeLevel _)
  unfold State.startSchedule
  split
  · exact validated
  · exact validated
  · exact refl s
  · exact setFsc s _

theorem stopSchedule (s : State) : Moves s s.stopSchedule := by
  unfold State.stopSchedule
  split
  · exact setFsc s _
  all_goals exact refl s

theorem endCycle (s : State) : Moves s s.endCycle := by
  unfold State.endCycle State.nextCycle
  dsimp only
  split
  · split_ifs
    · exact (((setTime s _).trans (endRound _)).trans (setFsc _ _)).trans (beginCycle _ _ _)
    · exact (setTime s _).trans (beginCycle _ _ _)
  · exact ((setTime s _).trans (setFsc _ _)).trans (endRound _)
  · exact refl s
  · exact refl s

theorem firePoint (s : State) (n : Nat) (t : PartTime) (h : Fin 8) (profile : Fin 4) (steal : Bool) :
    Moves s (s.firePoint n t h profile steal) := by
  unfold State.firePoint
  split
  · exact (modTally s _ _).trans (report _ _ _ _ _)
  · exact ((setHlp s _).trans (setFsc _ _)).trans (modTally _ _ _)
  · exact ((setHlp s _).trans (setFsc _ _)).trans (modTally _ _ _)

theorem reachEntry (s : State) (n : Nat) : Moves s (s.reachEntry n) := by
  unfold State.reachEntry
  split
  · exact refl s
  · exact refl s
  · dsimp only
    split_ifs
    · exact ((setTime s _).trans (setFsc _ _)).trans (firePoint _ _ _ _ _ _)
    · exact (setTime s _).trans (setFsc _ _)
    · exact refl s

theorem windowExpiry (s : State) (h : Fin 8) : Moves s (s.windowExpiry h) := by
  unfold State.windowExpiry
  split
  · exact (((setTime s _).trans (setFsc _ _)).trans (recordMiss _ h _)).trans (tallyResolved _ _ true)
  · exact refl s
  · exact refl s

/-! ### The window and the shells (R107 to R122) -/

theorem offerSegment (s : State) (r : SegmentReport) : Moves s (s.offerSegment r) := by
  unfold State.offerSegment
  split_ifs with refused
  · exact refl s
  · exact of_move (.segmentOffered s r (by simpa using refused))

end Moves

/-- A segment report that is offered leaves the contexts. -/
theorem State.offerSegment_mtr (s : State) (r : SegmentReport) : (s.offerSegment r).mtr = s.mtr := by
  unfold State.offerSegment
  split_ifs <;> rfl

/-- A closing after the record has left the window: its shell's context moves, and its report is offered (R118). -/
def State.segmentJudged (s : State) (r : OpenSegment) (early : Bool) : State :=
  match s.ctx r.slot with
  | none => s
  | some c =>
    (s.offerSegment (judge (s.productEntry c.product) c.product.val r early)).setCtx r.slot
      (some (c.closed r.index (judge (s.productEntry c.product) c.product.val r early) (!s.rqu.refuses)))

theorem State.closeSegment_eq (s : State) (r : OpenSegment) (early : Bool) :
    s.closeSegment r early = (s.setWmb ⟨s.wmb.window.filter fun x => !x.hasKey r.shell r.index⟩).segmentJudged r early := by
  unfold State.closeSegment State.segmentJudged
  rfl

/-- The judgement of a closed segment does not read the window. -/
theorem State.segmentJudged_setWmb (s : State) (r : OpenSegment) (early : Bool) (w : Wmb) :
    (s.segmentJudged r early).setWmb w = (s.setWmb w).segmentJudged r early := by
  unfold State.segmentJudged
  rw [show (s.setWmb w).ctx r.slot = s.ctx r.slot from rfl]
  split
  · rfl
  · unfold State.offerSegment
    rw [State.setWmb_rqu]
    split_ifs <;> rfl

theorem keys_filter_sublist (w : List OpenSegment) (p : OpenSegment → Bool) : (Wmb.keys ⟨w.filter p⟩).Sublist (Wmb.keys ⟨w⟩) :=
  List.filter_sublist.map _

/-- A record has a key exactly when that key is its own (R107). -/
theorem OpenSegment.hasKey_iff (r : OpenSegment) (shell index : Nat) :
    r.hasKey shell index = true ↔ (r.shell, r.index) = (shell, index) := by
  simp [OpenSegment.hasKey]

theorem Wmb.mem_keys_iff (x : Wmb) (shell index : Nat) : (shell, index) ∈ x.keys ↔ x.window.any (·.hasKey shell index) = true := by
  simp [Wmb.keys, OpenSegment.hasKey_iff]

/-- A shot that hits a record leaves the keys (R111). -/
theorem State.hit_keys (s : State) (p : Placed) (wall : Nat) : (s.hit p wall).wmb.keys = s.wmb.keys := by
  unfold State.hit Wmb.keys
  rw [State.setWmb_wmb, List.map_map]
  refine List.map_congr_left fun r _ => ?_
  dsimp only [Function.comp]
  split_ifs <;> rfl

/-- The victim is an open record (R114). -/
theorem State.victim_mem {s : State} {v : OpenSegment} (found : s.victim = some v) : v ∈ s.wmb.window := by
  obtain ⟨i, -, lowest⟩ := List.exists_of_findSome?_eq_some found
  obtain ⟨c, -, lowest⟩ := Option.bind_eq_some_iff.1 lowest
  exact (lowestOpen_some lowest).1

namespace Moves

theorem segmentJudged (s : State) (r : OpenSegment) (early : Bool) : Moves s (s.segmentJudged r early) := by
  unfold State.segmentJudged
  split
  · exact refl s
  · rename_i c live
    refine (offerSegment s _).trans (setCtx_live _ (c := c) ?_ (.of_kept rfl rfl rfl rfl))
    exact (State.ctx_of_mtr (s.offerSegment_mtr _) _).trans live

theorem closeSegment (s : State) (r : OpenSegment) (early : Bool) : Moves s (s.closeSegment r early) := by
  rw [s.closeSegment_eq]
  exact (of_move (.window s _ (keys_filter_sublist _ _))).trans (segmentJudged _ r early)

theorem closeRun (shell : Nat) (test : Nat → Bool) (fuel : Nat) (s : State) : Moves s (s.closeRun shell test fuel) := by
  induction fuel generalizing s with
  | zero => exact refl s
  | succ n ih =>
    unfold State.closeRun
    split
    · exact refl s
    · split_ifs
      · exact (closeSegment s _ _).trans (ih _)
      · exact refl s

theorem naturalClose (s : State) (c : ShellContext) (d : Int) : Moves s (s.naturalClose c d) := by
  unfold State.naturalClose
  split_ifs
  · exact closeRun _ _ _ s
  · exact refl s

/-- A shot that opens a record in the place of a victim (R116). -/
theorem evict (s : State) {v : OpenSegment} (victim : v ∈ s.wmb.window) (p : Placed) (sectors wall : Nat)
    (new : (p.shell, p.segment) ∉ s.wmb.keys) : Moves s ((s.closeSegment v true).openFor p sectors wall) := by
  have swapped : (s.closeSegment v true).openFor p sectors wall
      = (s.setWmb ⟨(s.wmb.window.filter fun x => !x.hasKey v.shell v.index)
          ++ [(openRecord p sectors).accumulate p.sector wall p.x]⟩).segmentJudged v true := by
    rw [State.openFor, State.closeSegment_window, State.closeSegment_eq, State.segmentJudged_setWmb]
    rfl
  rw [swapped]
  exact (of_move (.segmentReplaces s v _ victim new)).trans (segmentJudged _ v true)

theorem acceptGood (s : State) (p : Placed) (wall : Nat) : Moves s (s.acceptGood p wall) := by
  unfold State.acceptGood
  split
  · exact refl s
  · dsimp only
    split_ifs with open_ late room
    · exact (of_move (.window s (s.hit p wall).wmb (s.hit_keys p wall ▸ List.Sublist.refl _))).trans (countReason _ _ _)
    · exact countReason s _ _
    · exact (of_move (.segmentOpens s _ room fun mem => open_ ((s.wmb.mem_keys_iff _ _).1 mem))).trans (countReason _ _ _)
    · split
      · exact countReason s _ _
      · rename_i v found
        split_ifs
        · exact countReason s _ _
        · exact (evict s (State.victim_mem found) p _ wall fun mem => open_ ((s.wmb.mem_keys_iff _ _).1 mem)).trans (countReason _ _ _)

theorem endShell (s : State) (i : Fin 2) : Moves s (s.endShell i) := by
  unfold State.endShell
  split
  · exact refl s
  · dsimp only
    split
    · exact closeRun _ _ _ s
    · rename_i c1 live
      exact (closeRun _ _ _ s).trans (of_move (.shellEnds _ i c1 _ live))

end Moves

/-! ### The end of a shell does not read its phase (R122) -/

/-- The context CLOSING (R122). -/
def ShellContext.closing (c : ShellContext) : ShellContext :=
  { c with phase := .closing }

/-- Two changes of one context or of two in either order. -/
theorem State.modCtx_closing_setCtx (s : State) (i j : Fin 2) (c : ShellContext) :
    (s.setCtx j (some c)).modCtx i ShellContext.closing
      = (s.modCtx i ShellContext.closing).setCtx j (some (if j = i then c.closing else c)) := by
  unfold State.modCtx
  by_cases e : j = i
  · subst e
    rw [State.setCtx_ctx, if_pos rfl]
    simp [State.setCtx]
  · have n : i.val ≠ j.val := fun x => e (Fin.ext x.symm)
    rw [if_neg e, State.setCtx_ctx_other _ _ (Ne.symm e)]
    simp only [State.setCtx, State.setMtr_mtr, State.setMtr_setMtr]
    rw [Vector.set_comm _ _ n]

theorem State.modCtx_offerSegment (s : State) (i : Fin 2) (f : ShellContext → ShellContext) (r : SegmentReport) :
    (s.modCtx i f).offerSegment r = (s.offerSegment r).modCtx i f := by
  unfold State.offerSegment
  rw [show (s.modCtx i f).rqu = s.rqu from rfl]
  split_ifs <;> rfl

theorem State.modCtx_closing_closeSegment (s : State) (i : Fin 2) (r : OpenSegment) (early : Bool) :
    (s.modCtx i ShellContext.closing).closeSegment r early = (s.closeSegment r early).modCtx i ShellContext.closing := by
  have slot : (s.modCtx i ShellContext.closing).ctx r.slot
      = (s.ctx r.slot).map fun c => if r.slot = i then c.closing else c := by
    rw [State.modCtx_ctx]
    split_ifs with e
    · rw [e]
    · simp
  unfold State.closeSegment
  rw [slot]
  cases live : s.ctx r.slot with
  | none => rfl
  | some c =>
    dsimp only [Option.map_some]
    rw [State.modCtx_closing_setCtx, ← State.modCtx_offerSegment]
    by_cases e : r.slot = i
    · simp only [e, if_true]; rfl
    · simp only [e, if_false]; rfl

theorem State.modCtx_closing_closeRun (i : Fin 2) (shell : Nat) (test : Nat → Bool) (fuel : Nat) (s : State) :
    (s.modCtx i ShellContext.closing).closeRun shell test fuel = (s.closeRun shell test fuel).modCtx i ShellContext.closing := by
  induction fuel generalizing s with
  | zero => rfl
  | succ n ih =>
    unfold State.closeRun
    rw [show (s.modCtx i ShellContext.closing).wmb = s.wmb from rfl]
    split
    · rfl
    · split_ifs
      · rw [State.modCtx_closing_closeSegment, ih]
      · rfl

/-- A shell ends as it would if it were not CLOSING. -/
theorem State.endShell_closing (s : State) (i : Fin 2) : (s.modCtx i ShellContext.closing).endShell i = s.endShell i := by
  unfold State.endShell
  rw [State.modCtx_ctx, if_pos rfl]
  cases live : s.ctx i with
  | none =>
    rw [State.modCtx, live, Option.map_none, ← live, Moves.setCtx_same]
  | some c =>
    dsimp only [Option.map_some]
    rw [show (s.modCtx i ShellContext.closing).wmb = s.wmb from rfl, show c.closing.shell = c.shell from rfl,
      State.modCtx_closing_closeRun]
    generalize s.closeRun c.shell (fun _ => true) s.wmb.window.length = a
    rw [State.modCtx_ctx, if_pos rfl]
    cases last : a.ctx i with
    | none =>
      rw [State.modCtx, last, Option.map_none, ← last, Moves.setCtx_same]
    | some c1 =>
      dsimp only [Option.map_some]
      simp only [State.modCtx, State.setCtx, State.queueShellReport, State.claim, State.setReady, State.setRqu, State.setMtr,
        Vector.set_set]
      rfl

namespace Moves

theorem gateBMissedCheck_goes (c : ShellContext) (x : Tracking) (enc : Count) : c.Goes (c.gateBMissedCheck x enc) := by
  unfold ShellContext.gateBMissedCheck
  split_ifs with missed
  · obtain ⟨entering, -⟩ := missed
    simp [ShellContext.Goes, ShellContext.Lawful, ShellContext.beforeTail, entering]
  · exact ⟨id, id⟩

theorem checkContext (s : State) (enc : Count) (i : Fin 2) : Moves s (s.checkContext enc i) := by
  unfold State.checkContext
  split
  · exact refl s
  · rename_i c live
    have checked : Moves s (s.setCtx i (some (c.gateBMissedCheck s.track enc))) :=
      setCtx_live s live (gateBMissedCheck_goes c s.track enc)
    have ends (a : State) : Moves a ((a.modCtx i ShellContext.closing).endShell i) := by
      rw [State.endShell_closing]
      exact endShell a i
    dsimp only
    split_ifs
    · exact (checked.trans (naturalClose _ _ _)).trans (ends _)
    · exact checked.trans (naturalClose _ _ _)
    · exact checked.trans (ends _)
    · exact checked

theorem endOfPass (s : State) (enc : Count) : Moves s (s.endOfPass enc) :=
  (checkContext s enc _).trans (checkContext _ enc _)

/-! ### Gate items (R77, R80, R83) -/

theorem measured_goes {c : ShellContext} (entering : c.phase = .entering) (x : Tracking) (enc : Count) (clamped : Bool) :
    c.Goes (c.measured x enc clamped) := by
  unfold ShellContext.measured
  dsimp only
  split <;> simp [ShellContext.Goes, ShellContext.Lawful, ShellContext.beforeTail, entering]

theorem tailed_goes (c : ShellContext) (enc : Count) (clamped : Bool) : c.Goes (c.tailed enc clamped) := by
  simp only [ShellContext.Goes, ShellContext.Lawful, ShellContext.beforeTail, ShellContext.tailed]
  simp +contextual

end Moves

/-- The context of a slot that is found satisfies the test. -/
theorem State.findSlot_some {s : State} {p : ShellContext → Bool} {i : Fin 2} (found : s.findSlot p = some i) :
    ∀ c, s.ctx i = some c → p c = true := by
  intro c live
  have := List.find?_some found
  simpa [live] using this

/-! ### A shell that enters (R77, R141, R144) -/

theorem State.report_mtr (s : State) (kind : CaptureKind) (source : CaptureSource) (time : PartTime) (detail : Nat) :
    (s.report kind source time detail).mtr = s.mtr := by
  rcases s.report_eq kind source time detail with e | e <;> rw [e] <;> rfl

theorem State.report_queue (s : State) (kind : CaptureKind) (source : CaptureSource) (time : PartTime) (detail : Nat) :
    (s.report kind source time detail).rqu.entries = s.rqu.entries
      ∧ (s.report kind source time detail).rqu.reservations = s.rqu.reservations := by
  rcases s.report_eq kind source time detail with e | e <;> rw [e] <;> exact ⟨rfl, rfl⟩

/-- An anomaly is reported alike whatever the result queue holds. -/
theorem State.report_setEntries (s : State) (kind : CaptureKind) (source : CaptureSource) (time : PartTime) (detail : Nat)
    (entries : List Report) :
    (s.setRqu { s.rqu with entries := entries }).report kind source time detail
      = (s.report kind source time detail).setRqu { (s.report kind source time detail).rqu with entries := entries } := by
  unfold State.report
  rw [State.setRqu_cmu]
  cases s.cmu.capture <;> rfl

/-- The loss of an entry, which is still held: it is reported, and the summary of its live shell counts it (R144). -/
def State.entryLost (s : State) (r : Report) (date : PartTime) : State :=
  let s1 := s.report .resultOverflow .upstream date r.shellNumber
  if r.isSegment then s1.mapCtx (ShellContext.lostReport r.shellNumber) else s1

/-- The loss of the oldest entry of a full queue (R144). -/
def State.lossReported (s : State) (date : PartTime) : State :=
  if 64 ≤ s.rqu.entries.length + s.rqu.reservations then
    match s.rqu.entries with
    | [] => s
    | r :: _ => s.entryLost r date
  else s

theorem State.discardOldest_eq {s : State} {r : Report} {rest : List Report} (front : s.rqu.entries = r :: rest) (date : PartTime) :
    s.discardOldest date = (s.entryLost r date).setRqu { (s.entryLost r date).rqu with entries := rest } := by
  unfold State.discardOldest State.entryLost
  rw [front]
  dsimp only
  rw [State.report_setEntries]
  split_ifs <;> rfl

/-- A loss leaves the result queue's entries and reservations, and in every slot a context that differs in its summary at most. -/
theorem State.lossReported_leaves (s : State) (date : PartTime) :
    (s.lossReported date).rqu.entries = s.rqu.entries ∧ (s.lossReported date).rqu.reservations = s.rqu.reservations
      ∧ (s.lossReported date).mtr.shellCounter = s.mtr.shellCounter ∧ (s.lossReported date).mtr.announce = s.mtr.announce
      ∧ ∃ f : ShellContext → ShellContext, (∀ c, (f c).phase = c.phase) ∧ ∀ i, (s.lossReported date).ctx i = (s.ctx i).map f := by
  have nothing : ∀ i, s.ctx i = (s.ctx i).map id := fun i => (Option.map_id_apply).symm
  unfold State.lossReported
  split_ifs
  · split
    · exact ⟨rfl, rfl, rfl, rfl, id, fun _ => rfl, nothing⟩
    · rename_i r _ _
      obtain ⟨entries, reservations⟩ := s.report_queue .resultOverflow .upstream date r.shellNumber
      have mtr := s.report_mtr .resultOverflow .upstream date r.shellNumber
      have counter := congrArg Mtr.shellCounter mtr
      have announce := congrArg Mtr.announce mtr
      unfold State.entryLost
      dsimp only
      split_ifs
      · exact ⟨entries, reservations, counter, announce, _,
          ShellContext.lostReport_phase r.shellNumber, fun i => by rw [State.mapCtx_ctx, State.ctx_of_mtr mtr]⟩
      · exact ⟨entries, reservations, counter, announce, id, fun _ => rfl,
          fun i => (State.ctx_of_mtr mtr i).trans (nothing i)⟩
  · exact ⟨rfl, rfl, rfl, rfl, id, fun _ => rfl, nothing⟩

theorem State.reserve_eq (s : State) (date : PartTime) :
    s.reserve date = (s.lossReported date).setRqu
      { (s.lossReported date).rqu with
        entries := (s.lossReported date).rqu.entriesWithRoom, reservations := (s.lossReported date).rqu.reservations + 1 } := by
  obtain ⟨entries, reservations, -⟩ := s.lossReported_leaves date
  unfold State.reserve Rqu.entriesWithRoom
  rw [entries, reservations]
  unfold State.lossReported
  split_ifs with full
  · cases front : s.rqu.entries with
    | nil =>
      rw [State.discardOldest, front]
      dsimp only
      rw [front]
      rfl
    | cons r rest =>
      have held : (s.entryLost r date).rqu.reservations = s.rqu.reservations := by
        rw [← reservations, State.lossReported, if_pos full, front]
      rw [State.discardOldest_eq front, ← held]
      rfl
  · rfl

/-- A shell enters in its slot once the loss of the oldest entry of a full queue has been reported (R77, R141, R144). -/
theorem State.enterShell_eq (s : State) (i : Fin 2) (date : PartTime) (m : Motion) (clamped : Bool) :
    s.enterShell i date m clamped = (s.lossReported date).withShell i (s.newContext m clamped)
      (if (s.ctx (otherSlot i)).isSome then otherSlot i else i) (some s.mtr.nextProduct) := by
  obtain ⟨-, -, counter, announce, -⟩ := s.lossReported_leaves date
  unfold State.enterShell State.withShell
  rw [State.reserve_eq, counter, announce]
  rfl

namespace Moves

theorem lossReported (s : State) (date : PartTime) : Moves s (s.lossReported date) := by
  unfold State.lossReported
  split_ifs
  · split
    · exact refl s
    · unfold State.entryLost
      dsimp only
      split_ifs
      · refine (report s _ _ _ _).trans (mapCtx _ fun c => ?_)
        unfold ShellContext.lostReport
        split_ifs <;> exact .of_kept rfl rfl rfl rfl
      · exact report s _ _ _ _
  · exact refl s

theorem enterShell (s : State) {i : Fin 2} (free : s.ctx i = none) (alone : s.anyCtx ShellContext.beforeTail = false) (date : PartTime)
    (m : Motion) (clamped : Bool) : Moves s (s.enterShell i date m clamped) := by
  obtain ⟨-, -, counter, -, f, phase, contexts⟩ := s.lossReported_leaves date
  have same (c : ShellContext) : (f c).beforeTail = c.beforeTail := by
    rw [ShellContext.beforeTail, ShellContext.beforeTail, phase]
  rw [s.enterShell_eq]
  refine (lossReported s date).trans (of_move (.shellEnters _ i _ _ _ ?_ ?_ rfl counter.symm ⟨rfl, rfl⟩))
  · rw [contexts, free]
    rfl
  · simpa only [State.anyCtx, contexts, Option.any_map, same] using alone

theorem gateARise (s : State) (date : PartTime) (m : Motion) (clamped : Bool) : Moves s (s.gateARise date m clamped) := by
  unfold State.gateARise
  split_ifs with unloaded before
  · exact report s _ _ _ _
  · exact report s _ _ _ _
  · split
    · exact report s _ _ _ _
    · rename_i i found
      have free : s.ctx i = none := by
        unfold State.freeSlot at found
        split_ifs at found with first second
        · rw [← Option.some.inj found]
          exact Option.isNone_iff_eq_none.1 first
        · rw [← Option.some.inj found]
          exact Option.isNone_iff_eq_none.1 second
      exact enterShell s free (by simpa using before) date m clamped

theorem resolveGate (s : State) (g : GateEdge) : Moves s (s.resolveGate g) := by
  unfold State.resolveGate
  dsimp only
  split
  · exact gateARise s _ _ _
  · unfold State.gateAFall
    split
    · exact report s _ _ _ _
    · exact modCtx s _ fun c _ => tailed_goes c _ _
  · unfold State.gateBRise
    split
    · exact report s _ _ _ _
    · rename_i found
      exact modCtx s _ fun c live => measured_goes (by simpa using State.findSlot_some found c live) _ _ _
  · exact refl s

/-! ### The resolution queue (R92 to R102) -/

theorem discardStale (s : State) (x : Shot) : Moves s (s.discardStale x) := by
  unfold State.discardStale
  split
  · exact refl s
  · exact report s _ _ _ _

theorem deliver (s : State) (h : Fin 8) (p : Placed) (e : Evaluation) : Moves s (s.deliver h p e) := by
  unfold State.deliver
  split
  · split_ifs
    · exact acceptGood s p _
    · exact countReason s _ _
  all_goals exact countReason s _ _

theorem evaluateShot (s : State) (x : Shot) (p : Placed) : Moves s (s.evaluateShot x p) := by
  unfold State.evaluateShot
  split
  · exact refl s
  · rename_i c live
    split_ifs
    · have tempered : Moves s (s.setCtx p.slot (some { c with heldTemp := evaluateHeld (s.evalInput x c) })) :=
        setCtx_live s live (.of_kept rfl rfl rfl rfl)
      exact (tempered.trans (recordOutcome _ _ _)).trans (deliver _ _ _ _)
    · exact countReason s _ _

theorem resolveShot (s : State) (x : Shot) : Moves s (s.resolveShot x) := by
  unfold State.resolveShot
  split_ifs
  · exact discardStale s x
  · split
    · unfold State.resolveBracketed
      split
      · exact refl s
      · exact report s _ _ _ _
      · exact report s _ _ _ _
      · exact evaluateShot s x _
    · exact discardStale s x

theorem resolveItem (s : State) (i : Item) : Moves s (s.resolveItem i) := by
  cases i with
  | shot x => exact resolveShot s x
  | gate g => exact resolveGate s g

theorem shotArrival (s : State) (x : Shot) : Moves s (s.shotArrival x) := by
  unfold State.shotArrival
  split_ifs with duplicate stale now full
  · exact report s _ _ _ _
  · exact discardStale s x
  · exact resolveShot s x
  · exact report s _ _ _ _
  · exact of_move (.shotHeld s x (Nat.not_le.1 full) (by simpa using duplicate))

theorem gateArrival (s : State) (g : GateEdge) : Moves s (s.gateArrival g) := by
  unfold State.gateArrival
  split_ifs with now full
  · exact resolveGate s g
  · exact report s _ _ _ _
  · exact of_move (.gateHeld s g (Nat.not_le.1 full))

theorem passItems (tau : PartTime) (items : List Item) (s : State) (held : s.rsq.items = items) : Moves s (s.passItems tau items) := by
  induction items generalizing s with
  | nil => exact refl s
  | cons i rest ih =>
    unfold State.passItems
    split_ifs
    · exact refl s
    · have taken : ((s.setRsq { s.rsq with items := rest }).resolveItem i).rsq.items = rest := by
        rw [(ResolutionFrame.resolveItem _ i).rsq]
        rfl
      exact ((of_move (.itemTaken s i rest held)).trans (resolveItem _ i)).trans (ih _ taken)

theorem motionSample (s : State) (t : PartTime) (x : Sample) (fault : Bool) : Moves s (s.motionSample t x fault) := by
  unfold State.motionSample
  split_ifs with faulty late
  · exact refl s
  · exact report s _ _ _ _
  · have newest : ∀ n, s.mtr.history.getLast? = some n → earlier n.tau x.tau = true := by
      intro n last
      simpa [last] using late
    exact ((of_move (.sample s x newest)).trans (passItems _ _ _ rfl)).trans (endOfPass _ _)

/-! ### The gate filters (R73, R74) -/

theorem takeEdge (s : State) (line : GateLine) (date : PartTime) : Moves s (s.takeEdge line date) := by
  unfold State.takeEdge
  dsimp only
  split
  · exact setFilter s _ _
  · exact (setFilter s _ _).trans (gateArrival _ _)
  · exact (setFilter s _ _).trans (gateArrival _ _)

theorem lineChange (s : State) (line : GateLine) (t : PartTime) (high : Bool) : Moves s (s.lineChange line t high) := by
  unfold State.lineChange State.beginChange
  dsimp only
  split_ifs
  · exact refl s
  · exact (setFilter s _ _).trans (setFilter _ _ _)
  · exact (setFilter s _ _).trans (takeEdge _ _ _)
  · exact (setFilter s _ _).trans (setFilter _ _ _)

theorem filterExpiry (s : State) (line : GateLine) : Moves s (s.filterExpiry line) := by
  unfold State.filterExpiry
  split
  · exact refl s
  · exact (setTime s _).trans (takeEdge _ _ _)

/-! ### The head link (R202 to R205) -/

theorem matchReport (s : State) (t : PartTime) (h : Fin 8) (r : ShotReport) : Moves s (s.matchReport t h r) := by
  have routed (a : State) : Moves a (a.routeReply h r) := by
    unfold State.routeReply
    split
    · exact shotArrival a _
    · exact completeCalibration a h _ _
  unfold State.matchReport
  split
  · split_ifs
    · exact (((setFsc s _).trans (replied _ h)).trans (tallyResolved _ _ false)).trans (routed _)
    · exact report s _ _ _ _
  · split_ifs <;> exact report s _ _ _ _
  · exact report s _ _ _ _

theorem headArrival (s : State) (t : PartTime) (f : HeadFrame) : Moves s (s.headArrival t f) := by
  unfold State.headArrival
  split_ifs
  · exact refl s
  · unfold State.shotFrame
    split
    · exact matchReport s t _ _
    · unfold State.malformedShot
      dsimp only
      split_ifs
      · exact (report s _ _ _ _).trans (setFree _ _)
      · exact report s _ _ _ _
  · unfold State.motionFrame
    split_ifs
    · exact motionSample s t _ _
    · exact report s _ _ _ _
  · exact report s _ _ _ _

theorem headLinkBytes (s : State) (t : PartTime) (received : Bytes) : Moves s (s.headLinkBytes t received) := by
  unfold State.headLinkBytes
  split_ifs
  · exact refl s
  · split
    · exact refl s
    · exact headArrival s t _
    · exact (report s _ _ _ _).trans (setHlp _ _)

/-! ### The line chain (R150 to R161) -/

theorem enterDown (s : State) (t : PartTime) (f : LineFrame) : Moves s (s.enterDown t f) := by
  unfold State.enterDown
  split_ifs with full
  · exact report s _ _ _ _
  · exact of_move (.entersDown s f (Nat.not_le.1 full))

theorem enterUp (s : State) (t : PartTime) (f : LineFrame) : Moves s (s.enterUp t f) := by
  unfold State.enterUp
  split_ifs with full
  · exact report s _ _ _ _
  · exact of_move (.entersUp s f (Nat.not_le.1 full))

theorem downstreamArrival (s : State) (t : PartTime) (f : LineFrame) : Moves s (s.downstreamArrival t f) := by
  unfold State.downstreamArrival
  split_ifs
  · exact refl s
  · exact enterUp s t f

theorem downstreamBytes (s : State) (t : PartTime) (received : Bytes) : Moves s (s.downstreamBytes t received) := by
  unfold State.downstreamBytes
  split_ifs
  · exact refl s
  · split
    · exact refl s
    · exact downstreamArrival s t _
    · exact (report s _ _ _ _).trans (quiet (by constructor <;> rfl))

/-- The transmitter that is free chooses; that a RESTART answer has been sent is noted first. -/
theorem upstreamFree (s : State) : Moves s s.upstreamFree := by
  have chooses (a : State) (same : Quiet s a) (e : s.finishUp = a.setLcp { a.lcp with upTx := none }) : Moves s s.upstreamFree := by
    rw [State.upstreamFree, e]
    exact (quiet same).trans (of_move (.upFree a))
  unfold State.finishUp at chooses
  dsimp only at chooses
  cases progress : s.cmu.state with
  | idle => exact chooses s (by constructor <;> rfl) (by rw [progress])
  | restartPending answer =>
    cases answer with
    | sending => exact chooses (s.setCmu { s.cmu with state := .restartPending .sent }) (by constructor <;> rfl) (by rw [progress]; rfl)
    | waiting => exact chooses s (by constructor <;> rfl) (by rw [progress])
    | sent => exact chooses s (by constructor <;> rfl) (by rw [progress])

theorem fallsIdle (s : State) (port : Receiver) : Moves s (s.fallsIdle port) := by
  cases port <;> exact quiet (by constructor <;> rfl)

theorem restartDue (s : State) (t : PartTime) (cut : Cut) : Moves s (s.restartDue t cut) := by
  unfold State.restartDue
  split
  · exact (of_move (.restarts s t cut)).trans (of_move (.upFree _))
  · exact of_move (.restarts s t cut)
  · exact refl s
  · exact refl s

/-! ### Commands (R162 to R184) -/

theorem writeTable (s : State) (t : PartTime) (table index : Nat) (c : Bytes) : Moves s (s.writeTable t table index c).1 := by
  unfold State.writeTable
  split
  · exact refl s
  · have effects (a : State) : Moves a (a.writeEffects t table index) := by
      unfold State.writeEffects
      split
      · exact headWritten a _
      · exact setupWritten a t
      · exact refl a
    exact (setTst s _).trans (effects _)

theorem actStart (s : State) (t : PartTime) : Moves s (s.actStart t).state := by
  have started := startSchedule s t
  unfold State.actStart
  split <;> rename_i e <;> rwa [e] at started

theorem actAnnounce (s : State) (args : Bytes) : Moves s (s.actAnnounce args).state := by
  unfold State.actAnnounce
  split_ifs with unknown full
  · exact refl s
  · exact refl s
  · exact of_move (.announced s _ (Nat.not_le.1 full))

theorem actSetAddress (s : State) (args : Bytes) : Moves s (s.actSetAddress args).state := by
  unfold State.actSetAddress
  split_ifs with above
  · exact refl s
  · exact of_move (.readdressed s _ (by rw [byteOf_toNat]; omega))

theorem owner (s : State) (t : PartTime) (code : Nat) (args : Bytes) (isBroadcast : Bool) (cut : Cut) :
    Moves s (s.owner t code args isBroadcast cut).state := by
  unfold State.owner
  split
  · exact refl s
  · exact writeTable s t _ _ _
  · exact actStart s t
  · exact stopSchedule s
  · exact actAnnounce s args
  · unfold State.actRequestCal
    split_ifs
    · exact refl s
    · exact refl s
    · exact refl s
    · exact setHcu s _
  · exact actSetAddress s args
  · exact refl s
  · unfold State.actSetScratch
    dsimp only
    split
    · exact quiet (by constructor <;> rfl)
    · exact quiet (by constructor <;> rfl)
    · exact refl s
  · exact of_move (.capture s _ nofun)
  · unfold State.actRestart
    split_ifs
    · exact of_move (.restarts s t cut)
    · exact quiet (by constructor <;> rfl)
  · exact refl s

theorem runCommand (s : State) (t : PartTime) (f : LineFrame) (cut : Cut) : Moves s (s.runCommand t f cut).state := by
  unfold State.runCommand
  split
  · exact refl s
  · split_ifs
    · exact refl s
    · exact owner s t _ _ _ cut
    · exact refl s

theorem consume (s : State) (t : PartTime) (f : LineFrame) (cut : Cut) : Moves s (s.consume t f cut) := by
  unfold State.consume State.takeCommand
  split_ifs
  · exact report s _ _ _ _
  · exact runCommand s t f cut
  · exact (runCommand s t f cut).trans (of_move (.answers _ _))
  · exact report s _ _ _ _

theorem upstreamArrival (s : State) (t : PartTime) (f : LineFrame) (cut : Cut) : Moves s (s.upstreamArrival t f cut) := by
  unfold State.upstreamArrival
  split_ifs
  · exact refl s
  · exact (enterDown s t f).trans (consume _ t f cut)
  · exact consume s t f cut
  · exact enterDown s t f

theorem upstreamBytes (s : State) (t : PartTime) (received : Bytes) : Moves s (s.upstreamBytes t received) := by
  unfold State.upstreamBytes
  split_ifs
  · exact refl s
  · split
    · exact refl s
    · exact upstreamArrival s t _ _
    · exact (report s _ _ _ _).trans (quiet (by constructor <;> rfl))

end Moves

/-! ### Steps -/

/-- A step is a run of moves that begins with no claimant remembered, and then the choice of an idle upstream transmitter; the claimant
remembered between steps takes no part in it (R157; log 26). -/
def Stepped (s s' : State) : Prop :=
  ∃ a, Moves (s.setReady none) a ∧ s'.setReady none = a.settled.setReady none

namespace Stepped

/-- Moves that do not read what is remembered, with nothing claimed. -/
theorem of_unclaimed {s s' : State} (x : Moves (s.setReady none) (s'.setReady none)) : Stepped s s' :=
  ⟨_, x, rfl⟩

theorem of_quiet {s s' : State} (same : Quiet (s.setReady none) (s'.setReady none)) : Stepped s s' :=
  of_unclaimed (.quiet same)

theorem whole (s : State) {f : State → State} (x : ∀ a, Moves a (f a)) : Stepped s (whole s f) :=
  ⟨_, x _, rfl⟩

theorem acting (t : PartTime) (s : State) {f : State → State} (x : ∀ a, Moves a (f a)) : Stepped s (acting t s f) := by
  unfold Machine.acting
  split_ifs
  · exact ⟨_, (Moves.setTime (s.setReady none) t).trans (x _), rfl⟩
  · exact of_unclaimed (.setTime _ t)

theorem actingTimed (s : State) {f : State → State} (x : ∀ a, Moves a (f a)) : Stepped s (actingTimed s f) := by
  unfold Machine.actingTimed
  split_ifs
  · exact whole s x
  · exact of_unclaimed (.refl _)

theorem gateLineChange (s : State) (t : PartTime) (line : GateLine) (high : Bool) :
    Stepped s (if s.rstHigh then Machine.whole (s.setTime t) fun a => a.lineChange line t high
      else (s.setTime t).setFilter line { s.filter line with line := high }) := by
  split_ifs
  · exact ⟨_, (Moves.setTime (s.setReady none) t).trans (.lineChange _ line t high), rfl⟩
  · cases line <;> exact of_quiet (by constructor <;> rfl)

theorem rstRise (s : State) (t : PartTime) : Stepped s (if s.rstHigh then s.setTime t else (s.setTime t).rstRise) := by
  split_ifs <;> exact of_quiet (by constructor <;> rfl)

theorem exec {c : Instr} {s s' : State} (next : exec c s = .next s') : Stepped s s' := by
  have command (t : PartTime) (h : CommandHeader) (code : Byte) (args : Bytes) (cut : Cut) :
      Stepped s (s.commandArrives t h code args cut) := acting t s fun a => .upstreamArrival a t _ cut
  have frame (t : PartTime) (f : HeadFrame) : Stepped s (Machine.acting t s fun a => a.headArrival t f) :=
    acting t s fun a => .headArrival a t f
  cases c <;> obtain rfl := Host.Outcome.next.inj next
  case readTable t h args => exact command t h 1 args _
  case writeTable t h args => exact command t h 2 args _
  case start t h args => exact command t h 3 args _
  case stop t h args => exact command t h 4 args _
  case announce t h args => exact command t h 5 args _
  case requestCal t h args => exact command t h 6 args _
  case setAddress t h args => exact command t h 7 args _
  case status t h args => exact command t h 8 args _
  case setScratch t h args => exact command t h 9 args _
  case clearCapture t h args => exact command t h 10 args _
  case restart t h args cut => exact command t h 11 args cut
  case restartTakesEffect t cut => exact acting t s fun a => .restartDue a t cut
  case coldReset t cut => exact of_unclaimed ((Moves.setTime _ t).trans (.of_move (.coldResets _ cut)))
  case rstRise t => exact rstRise s t
  case shotReport t node payload => exact frame t _
  case motionReport t node payload => exact frame t _
  case headLinkUnknownKind t node kind payload => exact frame t _
  case headFrameCheck t received => exact acting t s fun a => .headLinkBytes a t received
  case upstreamFrameArrival t f => exact acting t s fun a => .upstreamArrival a t f _
  case downstreamFrameArrival t f => exact acting t s fun a => .downstreamArrival a t f
  case lineFrameCheck t port received =>
    cases port with
    | upstream => exact acting t s fun a => .upstreamBytes a t received
    | downstream => exact acting t s fun a => .downstreamBytes a t received
  case upstreamTransmitterFree t => exact acting t s fun a => .upstreamFree a
  case downstreamTransmitterFree t => exact acting t s fun a => .of_move (.downFree a)
  case headLinkTransmitDone t => exact acting t s fun a => .setHlp a _
  case cycleEnd => exact actingTimed s fun a => .endCycle a
  case firingPoint entry => exact actingTimed s fun a => .reachEntry a entry.val
  case replyWindowExpiry head => exact actingTimed s fun a => .windowExpiry a head
  case calibrationTimerExpiry => exact actingTimed s fun a => .timerExpiry a
  case gateLineChange t line high => exact gateLineChange s t line high
  case gateFilterExpiry line => exact actingTimed s fun a => .filterExpiry a line
  case lineFallsIdle t port => exact acting t s fun a => .fallsIdle a port

theorem step {s s' : State} (next : step s = .next s') : Stepped s s' := by
  unfold Machine.step at next
  split at next
  · obtain rfl := Host.Outcome.next.inj next
    exact of_unclaimed (.setTime _ _)
  · obtain ⟨a, run, ends⟩ := exec next
    exact ⟨a, (Moves.setPending _ _).trans run, ends⟩

end Stepped

/-- A law that every move keeps, and the choice at the end of a step, is kept by every step. -/
theorem law_of_moves {law : State → Prop} (move : ∀ a b, Move a b → law a → law b)
    (choice : ∀ a, law a → law (a.settled.setReady none)) {s s' : State} (held : law (s.setReady none)) (next : step s = .next s') :
    law (s'.setReady none) := by
  obtain ⟨a, run, ends⟩ := Stepped.step next
  have kept : law a := by
    clear ends
    induction run with
    | refl => exact held
    | tail _ x ih => exact move _ _ x ih
  rw [ends]
  exact choice a kept

end Sys2Proof.Machine
end

section
/-! PROOFS. Every move keeps the capacities of the queues and buffers, and the room reserved for live shells (R67, R79, R92, R93, R107,
R141, R153). -/

namespace Sys2Proof.Machine

/-! ### The history (R67) -/

theorem pushSample_length (history : List Sample) (x : Sample) : (pushSample history x).length ≤ 8 := by
  simp only [pushSample, List.length_drop, List.length_append, List.length_singleton]
  omega

/-- A history with a sample later than its newest is still in order. -/
theorem pushSample_chain {history : List Sample} {x : Sample} (ordered : history.IsChain fun a b => earlier a.tau b.tau = true)
    (newest : ∀ n, history.getLast? = some n → earlier n.tau x.tau = true) :
    (pushSample history x).IsChain fun a b => earlier a.tau b.tau = true := by
  refine List.IsChain.drop (List.isChain_append.2 ⟨ordered, .singleton x, fun n last y first => ?_⟩) _
  obtain rfl : x = y := Option.some.inj first
  exact newest n last

/-! ### The resolution queue (R92, R93) -/

theorem insertItem_perm (new : Item) (items : List Item) : (insertItem new items).Perm (new :: items) := by
  induction items with
  | nil => exact .refl _
  | cons held rest ih =>
    unfold insertItem
    split_ifs
    · exact .refl _
    · exact (ih.cons held).trans (.swap new held rest)

theorem Rsq.holdsDuplicate_iff (q : Rsq) (x : Shot) : q.holdsDuplicate x = true ↔ (x.head, x.time) ∈ q.items.filterMap Item.shotKey := by
  unfold Rsq.holdsDuplicate
  rw [List.any_eq_true, List.mem_filterMap]
  refine exists_congr fun i => and_congr_right fun _ => ?_
  cases i <;> simp [Item.shotKey]

/-- At most 60 shots and 4 gate items, no two shots alike: `State.ItemsBounded`, said of a list. -/
def ItemsLawful (items : List Item) : Prop :=
  items.countP Item.isShot ≤ 60 ∧ items.countP (fun i => !i.isShot) ≤ 4 ∧ (items.filterMap Item.shotKey).Nodup

theorem ItemsLawful.perm {l l' : List Item} (law : ItemsLawful l) (p : l'.Perm l) : ItemsLawful l' := by
  obtain ⟨shots, gates, keys⟩ := law
  exact ⟨p.countP_eq _ ▸ shots, p.countP_eq _ ▸ gates, (p.filterMap _).nodup_iff.2 keys⟩

theorem ItemsLawful.tail {i : Item} {rest : List Item} (law : ItemsLawful (i :: rest)) : ItemsLawful rest := by
  obtain ⟨shots, gates, keys⟩ := law
  have part : List.Sublist rest (i :: rest) := List.sublist_cons_self i rest
  exact ⟨(part.countP_le).trans shots, (part.countP_le).trans gates, keys.sublist (part.filterMap _)⟩

theorem ItemsLawful.shot {items : List Item} (law : ItemsLawful items) {x : Shot} (room : items.countP Item.isShot < 60)
    (new : (x.head, x.time) ∉ items.filterMap Item.shotKey) : ItemsLawful (.shot x :: items) := by
  obtain ⟨-, gates, keys⟩ := law
  refine ⟨?_, ?_, ?_⟩
  · rw [List.countP_cons_of_pos rfl]
    exact room
  · rwa [List.countP_cons_of_neg (by simp [Item.isShot])]
  · exact List.nodup_cons.2 ⟨new, keys⟩

theorem ItemsLawful.gate {items : List Item} (law : ItemsLawful items) {g : GateEdge} (room : items.countP (fun i => !i.isShot) < 4) :
    ItemsLawful (.gate g :: items) := by
  obtain ⟨shots, -, keys⟩ := law
  refine ⟨?_, ?_, ?_⟩
  · rwa [List.countP_cons_of_neg (by simp [Item.isShot])]
  · rw [List.countP_cons_of_pos rfl]
    exact room
  · rwa [List.filterMap_cons_none rfl]

/-! ### The window (R107) -/

/-- At most twelve segments, no two with one key: `State.WindowBounded`, said of a window. -/
theorem State.windowBounded_iff (s : State) : s.WindowBounded ↔ s.wmb.keys.length ≤ 12 ∧ s.wmb.keys.Nodup := by
  simp [State.WindowBounded, Wmb.keys]

theorem keys_append (w : List OpenSegment) (r : OpenSegment) : Wmb.keys ⟨w ++ [r]⟩ = Wmb.keys ⟨w⟩ ++ [(r.shell, r.index)] := by
  simp [Wmb.keys]

theorem keys_append_nodup {w : List OpenSegment} {r : OpenSegment} (distinct : (Wmb.keys ⟨w⟩).Nodup)
    (new : (r.shell, r.index) ∉ Wmb.keys ⟨w⟩) :
    (Wmb.keys ⟨w ++ [r]⟩).Nodup := by
  rw [keys_append, List.nodup_append]
  refine ⟨distinct, List.nodup_singleton _, fun x mem y one same => new ?_⟩
  rwa [← List.mem_singleton.1 one, ← same]

/-- A record that takes the place of a victim leaves no more records than there were (R116). -/
theorem length_replaced {w : List OpenSegment} {v : OpenSegment} (victim : v ∈ w) (r : OpenSegment) :
    ((w.filter fun x => !x.hasKey v.shell v.index) ++ [r]).length ≤ w.length := by
  have fewer : (w.filter fun x => !x.hasKey v.shell v.index).length < w.length :=
    List.length_filter_lt_length_iff_exists.2 ⟨v, victim, by simp [OpenSegment.hasKey]⟩
  rw [List.length_append, List.length_singleton]
  omega

/-! ### The result queue (R141, R142, R144) -/

/-- The room of a result queue beside a number of live contexts: `State.RoomReserved`, said of both. -/
def Rqu.RoomFor (q : Rqu) (live : Nat) : Prop :=
  q.reservations = live ∧ q.entries.length + q.reservations ≤ 64 ∧ q.segments ≤ 62

theorem State.roomReserved_iff (s : State) : s.RoomReserved ↔ s.rqu.RoomFor s.liveCount :=
  Iff.rfl

theorem State.liveCount_congr {s s' : State} (same : ∀ i, (s'.ctx i).isSome = (s.ctx i).isSome) : s'.liveCount = s.liveCount := by
  rw [State.liveCount, State.liveCount, same, same]

theorem State.liveCount_le (s : State) : s.liveCount ≤ 2 := by
  unfold State.liveCount
  split_ifs <;> omega

/-- A slot that becomes live, or FREE, counts one more or less. -/
theorem State.liveCount_set {s s' : State} {i : Fin 2} (others : ∀ j, j ≠ i → s'.ctx j = s.ctx j) :
    s'.liveCount + (if (s.ctx i).isSome then 1 else 0) = s.liveCount + (if (s'.ctx i).isSome then 1 else 0) := by
  unfold State.liveCount
  match i with
  | 0 => rw [others 1 (by decide)]; omega
  | 1 => rw [others 0 (by decide)]; omega

section
variable {q : Rqu} {live : Nat} (law : q.RoomFor live)
include law

/-- Fewer entries, or other notices and another tag, keep the room. -/
theorem Rqu.RoomFor.sublist {q' : Rqu} (entries : q'.entries.Sublist q.entries) (reservations : q'.reservations = q.reservations) :
    q'.RoomFor live := by
  obtain ⟨reserved, most, segments⟩ := law
  have := entries.length_le
  exact ⟨reservations.trans reserved, by rw [reservations]; omega, (entries.countP_le (p := Report.isSegment)).trans segments⟩

theorem Rqu.RoomFor.offered (accepted : q.refuses = false) (r : SegmentReport) :
    Rqu.RoomFor { q with entries := q.entries ++ [.segment r] } live := by
  obtain ⟨reserved, -, -⟩ := law
  obtain ⟨few, room⟩ : q.segments < 62 ∧ q.entries.length + q.reservations < 64 := by simpa [Rqu.refuses] using accepted
  have one : List.countP Report.isSegment [.segment r] = 1 := rfl
  refine ⟨reserved, ?_, ?_⟩
  · rw [List.length_append, List.length_singleton]
    dsimp only
    omega
  · rw [Rqu.segments] at few ⊢
    rw [List.countP_append, one]
    omega

theorem Rqu.RoomFor.shellEnds (r : ShellReport) (one : 1 ≤ live) :
    Rqu.RoomFor { q with entries := q.entries ++ [.shell r], reservations := q.reservations - 1 } (live - 1) := by
  obtain ⟨reserved, most, segments⟩ := law
  have none_ : List.countP Report.isSegment [.shell r] = 0 := rfl
  refine ⟨by rw [← reserved], ?_, ?_⟩
  · rw [List.length_append, List.length_singleton]
    dsimp only
    omega
  · rw [Rqu.segments, List.countP_append, none_]
    exact segments

/-- At a full queue, and there alone, the oldest entry makes room for the reservation. -/
theorem Rqu.RoomFor.shellEnters (slot : live ≤ 1) :
    Rqu.RoomFor { q with entries := q.entriesWithRoom, reservations := q.reservations + 1 } (live + 1) := by
  obtain ⟨reserved, most, segments⟩ := law
  have part : q.entriesWithRoom.Sublist q.entries := by
    unfold Rqu.entriesWithRoom
    split_ifs
    · exact List.tail_sublist _
    · exact List.Sublist.refl _
  refine ⟨by rw [← reserved], ?_, (part.countP_le (p := Report.isSegment)).trans segments⟩
  dsimp only
  unfold Rqu.entriesWithRoom
  split_ifs with full
  · rw [List.length_tail]
    omega
  · omega

end

/-! ### The choice of the upstream transmitter -/

/-- What a choice can take: the buffers and the result queue only lose frames and entries. -/
structure TakesAtMost (s s' : State) : Prop where
  up      : s'.lcp.up.length ≤ s.lcp.up.length
  entries : s'.rqu.entries.Sublist s.rqu.entries

namespace TakesAtMost
variable (s : State)

theorem same {s s' : State} (up : s'.lcp.up = s.lcp.up) (entries : s'.rqu.entries = s.rqu.entries) : TakesAtMost s s' :=
  ⟨by rw [up], by rw [entries]⟩

theorem sendAnswer (f : LineFrame) : TakesAtMost s (s.sendAnswer f) := by
  unfold State.sendAnswer
  dsimp only
  split <;> exact same rfl rfl

theorem sendForward {f : LineFrame} {rest : List LineFrame} (front : s.lcp.up = f :: rest) : TakesAtMost s (s.sendForward f rest) :=
  ⟨by rw [front]; exact Nat.le_succ _, List.Sublist.refl _⟩

theorem sendResult {r : Report} {rest : List Report} (front : s.rqu.entries = r :: rest) : TakesAtMost s (s.sendResult r rest) :=
  ⟨Nat.le_refl _, by rw [front]; exact List.sublist_cons_self r rest⟩

theorem arbitrate : TakesAtMost s s.arbitrate := by
  rcases s.arbitrate_cases with ⟨f, -, e⟩ | ⟨-, -, e⟩ | ⟨-, -, f, rest, front, -, e⟩ | ⟨-, -, r, rest, front, -, e⟩ | ⟨-, -, -, -, e⟩ <;>
    rw [e]
  · exact sendAnswer s f
  · exact same rfl rfl
  · exact sendForward s front
  · exact sendResult s front
  · exact same rfl rfl

theorem settled : TakesAtMost s s.settled := by
  unfold State.settled
  split
  · exact same rfl rfl
  · rename_i c _
    split_ifs
    · exact same rfl rfl
    · rcases s.chooseFirst_cases c with e | ⟨-, -, e⟩ | ⟨-, f, rest, front, e⟩ | ⟨-, r, rest, front, e⟩ <;> rw [e]
      · exact arbitrate s
      · exact same rfl rfl
      · exact sendForward s front
      · exact sendResult s front

end TakesAtMost

/-- The downstream transmitter that is free takes the head of its buffer, if there is one (R159). -/
theorem State.downstreamFree_eq (s : State) :
    s.downstreamFree = s.setLcp { s.lcp with down := s.lcp.down.tail, downTx := s.lcp.down.head? } := by
  unfold State.downstreamFree
  split
  · rename_i front
    rw [front]
    rfl
  · rename_i empty
    simp [State.setLcp, empty]

/-! ### The moves -/

namespace State.Capacities

variable {s : State} (law : s.Capacities)
include law

/-- The capacities speak of the lengths of these queues and buffers alone. -/
theorem congr {s' : State} (down : s'.lcp.down.length ≤ s.lcp.down.length) (up : s'.lcp.up.length ≤ s.lcp.up.length)
    (history : s'.mtr.history = s.mtr.history) (announce : s'.mtr.announce = s.mtr.announce) (rsq : s'.rsq = s.rsq) (wmb : s'.wmb = s.wmb)
    (room : s'.RoomReserved) : s'.Capacities := by
  obtain ⟨⟨down', up'⟩, ordered, announced, items, window, -⟩ := law
  refine ⟨⟨down.trans down', up.trans up'⟩, ?_, ?_, ?_, ?_, room⟩
  · rw [State.HistoryOrdered, history]; exact ordered
  · rw [State.AnnounceBounded, announce]; exact announced
  · rw [State.ItemsBounded, rsq]; exact items
  · rw [State.WindowBounded, wmb]; exact window

/-- The forward buffers alone have changed. -/
theorem setLcp {x : Lcp} (down : x.down.length ≤ 8) (up : x.up.length ≤ 8) : (s.setLcp x).Capacities := by
  obtain ⟨-, rest⟩ := law
  exact ⟨⟨down, up⟩, rest⟩

theorem chosen {s' : State} (frame : ChoiceFrame s s') (takes : TakesAtMost s s') : s'.Capacities := by
  refine law.congr (by rw [frame.down]) takes.up (by rw [frame.mtr]) (by rw [frame.mtr]) frame.rsq frame.wmb ?_
  obtain ⟨-, -, -, -, -, room⟩ := law
  have live : s'.liveCount = s.liveCount := State.liveCount_congr fun i => by rw [State.ctx_of_mtr frame.mtr]
  rw [s'.roomReserved_iff, live]
  exact Rqu.RoomFor.sublist room takes.entries frame.reservations

/-- After either reset every queue but the forward buffers is empty. -/
theorem of_reset {s' : State} (down : s'.lcp.down.length ≤ s.lcp.down.length) (up : s'.lcp.up.length ≤ s.lcp.up.length)
    (history : s'.mtr.history = []) (announce : s'.mtr.announce = []) (rsq : s'.rsq = ⟨[]⟩) (wmb : s'.wmb = ⟨[]⟩) (rqu : s'.rqu = Rqu.reset)
    (contexts : s'.mtr.contexts = Vector.replicate 2 none) : s'.Capacities := by
  obtain ⟨⟨down', up'⟩, -⟩ := law
  have free (i : Fin 2) : s'.ctx i = none := by simp [State.ctx, contexts]
  refine ⟨⟨down.trans down', up.trans up'⟩, ?_, ?_, ?_, ?_, ?_⟩
  · simp [State.HistoryOrdered, history]
  · simp [State.AnnounceBounded, announce]
  · simp [State.ItemsBounded, rsq, Rsq.shots, Rsq.gates]
  · simp [State.WindowBounded, wmb]
  · simp [State.RoomReserved, State.liveCount, free, rqu, Rqu.reset, Rqu.segments]

theorem shellEnters {i : Fin 2} (free : s.ctx i = none) (c : ShellContext) (older : Fin 2) (product : Option (Fin 16)) :
    (s.withShell i c older product).Capacities := by
  obtain ⟨buffers, history, announced, items, window, room⟩ := law
  have others : ∀ j, j ≠ i → (s.withShell i c older product).ctx j = s.ctx j := fun j n => s.setCtx_ctx_other (some c) n
  have entered : (s.withShell i c older product).ctx i = some c := s.setCtx_ctx i (some c)
  have count := State.liveCount_set others
  rw [free, entered] at count
  have more : (s.withShell i c older product).liveCount = s.liveCount + 1 := count
  have most := (s.withShell i c older product).liveCount_le
  refine ⟨buffers, history, ?_, items, window, ?_⟩
  · have fewer : (s.mtr.announce.drop 1).length ≤ 4 := by
      rw [List.length_drop]
      exact (Nat.sub_le _ _).trans announced
    exact fewer
  · have kept := Rqu.RoomFor.shellEnters room (by omega)
    rw [← more] at kept
    exact kept

theorem shellEnds {i : Fin 2} {c : ShellContext} (live : s.ctx i = some c) (r : ShellReport) :
    ((s.queueShellReport r).setCtx i none).Capacities := by
  obtain ⟨buffers, history, announced, items, window, room⟩ := law
  have others : ∀ j, j ≠ i → ((s.queueShellReport r).setCtx i none).ctx j = s.ctx j := fun j n => s.setCtx_ctx_other none n
  have left : ((s.queueShellReport r).setCtx i none).ctx i = none := s.setCtx_ctx i none
  have count := State.liveCount_set others
  rw [live, left] at count
  have fewer : s.liveCount = ((s.queueShellReport r).setCtx i none).liveCount + 1 := count.symm
  have kept := Rqu.RoomFor.shellEnds room r (by omega)
  rw [fewer] at kept
  exact ⟨buffers, history, announced, items, window, kept⟩

/-- Every move keeps the capacities. -/
theorem move {s' : State} (x : Move s s') : s'.Capacities := by
  have whole := law
  obtain ⟨buffers, history, announced, items, window, room⟩ := law
  obtain ⟨down, up⟩ := buffers
  cases x with
  | quiet same =>
    have live : s'.liveCount = s.liveCount := State.liveCount_congr fun i => by simp only [State.ctx, same.contexts]
    exact whole.congr (by rw [same.down]) (by rw [same.up]) same.history same.announce same.rsq same.wmb
      (by rw [State.roomReserved_iff, live, same.rqu]; exact room)
  | notice n => exact ⟨⟨down, up⟩, history, announced, items, window, room⟩
  | capture c held => exact ⟨⟨down, up⟩, history, announced, items, window, room⟩
  | sample x newest => exact ⟨⟨down, up⟩, ⟨pushSample_length _ x, pushSample_chain history.2 newest⟩, announced, items, window, room⟩
  | announced p more =>
    refine ⟨⟨down, up⟩, history, ?_, items, window, room⟩
    simpa [State.AnnounceBounded] using more
  | shotHeld x few new =>
    have new' : (x.head, x.time) ∉ s.rsq.items.filterMap Item.shotKey := fun mem => by
      simp [(s.rsq.holdsDuplicate_iff x).2 mem] at new
    exact ⟨⟨down, up⟩, history, announced, (ItemsLawful.shot items few new').perm (insertItem_perm _ _), window, room⟩
  | gateHeld g few => exact ⟨⟨down, up⟩, history, announced, (ItemsLawful.gate items few).perm (insertItem_perm _ _), window, room⟩
  | itemTaken i rest front =>
    rw [State.ItemsBounded, Rsq.shots, Rsq.gates, front] at items
    exact ⟨⟨down, up⟩, history, announced, ItemsLawful.tail items, window, room⟩
  | context i c c' live goes =>
    have same : (s.setCtx i (some c')).liveCount = s.liveCount := State.liveCount_congr fun j => by
      by_cases e : j = i
      · rw [e, State.setCtx_ctx, live]
        rfl
      · rw [State.setCtx_ctx_other _ _ e]
    exact ⟨⟨down, up⟩, history, announced, items, window, by rw [State.roomReserved_iff, same]; exact room⟩
  | shellEnters i c older product free alone phase shell tail => exact whole.shellEnters free c older product
  | shellEnds i c r live => exact whole.shellEnds live r
  | window w kept =>
    obtain ⟨few, distinct⟩ := s.windowBounded_iff.1 window
    exact ⟨⟨down, up⟩, history, announced, items,
      (State.windowBounded_iff _).2 ⟨kept.length_le.trans few, distinct.sublist kept⟩, room⟩
  | segmentOpens r few new =>
    obtain ⟨-, distinct⟩ := window
    refine ⟨⟨down, up⟩, history, announced, items, ⟨?_, ?_⟩, room⟩
    · simpa using few
    · exact keys_append_nodup distinct new
  | segmentReplaces v r victim new =>
    obtain ⟨few, distinct⟩ := window
    have part := keys_filter_sublist s.wmb.window fun x => !x.hasKey v.shell v.index
    refine ⟨⟨down, up⟩, history, announced, items, ⟨(length_replaced victim r).trans few, ?_⟩, room⟩
    exact keys_append_nodup (distinct.sublist part) fun mem => new (part.subset mem)
  | segmentOffered r accepted => exact ⟨⟨down, up⟩, history, announced, items, window, Rqu.RoomFor.offered room accepted r⟩
  | entersDown f few =>
    have entered : (s.lcp.down ++ [f]).length ≤ 8 := by simpa using few
    have held : (s.setLcp { s.lcp with down := s.lcp.down ++ [f] }).Capacities := whole.setLcp entered up
    unfold State.takeDown
    split_ifs
    · exact held
    · rw [State.downstreamFree_eq]
      exact held.setLcp ((List.tail_sublist _).length_le.trans entered) up
  | entersUp f few =>
    have entered : (s.lcp.up ++ [f]).length ≤ 8 := by simpa using few
    exact ⟨⟨down, entered⟩, history, announced, items, window, room⟩
  | answers f => exact ⟨⟨down, up⟩, history, announced, items, window, room⟩
  | readdressed a own => exact ⟨⟨down, up⟩, history, announced, items, window, room⟩
  | downFree =>
    rw [State.downstreamFree_eq]
    exact whole.setLcp ((List.tail_sublist _).length_le.trans down) up
  | upFree =>
    have idle : (s.setLcp { s.lcp with upTx := none }).Capacities := whole.setLcp down up
    exact idle.chosen (.arbitrate _) (.arbitrate _)
  | restarts t cut => exact whole.of_reset (Nat.le_refl _) (Nat.le_refl _) rfl rfl rfl rfl rfl rfl
  | coldResets cut => exact whole.of_reset (Nat.zero_le _) (Nat.zero_le _) rfl rfl rfl rfl rfl rfl

end State.Capacities

/-- Settles O57: every move keeps the capacities, and so does the choice at the end of a step, which only takes frames and entries away. -/
theorem stepKeepsCapacities : Obligations.StepKeepsCapacities := by
  intro s s' held next
  exact law_of_moves (law := State.Capacities) (fun _ _ x law => law.move x)
    (fun a law => State.Capacities.chosen (s' := a.settled) law (.settled a) (.settled a)) held next

end Sys2Proof.Machine
end

section
/-! PROOFS. Every move keeps the laws of ownership (R75 to R77, R154, R157, R159, R176): within a step, a frame or result may wait for an idle
upstream transmitter only once a claimant is remembered, and the choice at the step's end then takes one. -/

namespace Sys2Proof.Machine

/-! ### Shell contexts (R75 to R77) -/

namespace State.ContextsLawful

variable {s : State} (law : s.ContextsLawful)
include law

/-- Every context of the new state is one that a context of the same slot goes over into. -/
theorem goes {s' : State} (contexts : ∀ i c', s'.ctx i = some c' → ∃ c, s.ctx i = some c ∧ c.Goes c')
    (counter : s'.mtr.shellCounter = s.mtr.shellCounter) : s'.ContextsLawful := by
  obtain ⟨lawful, one, numbered⟩ := law
  have before (i : Fin 2) (any : (s'.ctx i).any ShellContext.beforeTail = true) : (s.ctx i).any ShellContext.beforeTail = true := by
    obtain ⟨c', live, b⟩ := (Option.any_eq_true _ _).1 any
    obtain ⟨c, was, goes⟩ := contexts i c' live
    exact (Option.any_eq_true _ _).2 ⟨c, was, goes.2 b⟩
  refine ⟨fun i c' live => ?_, fun both => one ⟨before 0 both.1, before 1 both.2⟩, by rwa [counter]⟩
  obtain ⟨c, was, goes⟩ := contexts i c' live
  exact goes.1 (lawful i c was)

theorem congr {s' : State} (contexts : s'.mtr.contexts = s.mtr.contexts) (counter : s'.mtr.shellCounter = s.mtr.shellCounter) :
    s'.ContextsLawful :=
  law.goes (fun i c' live => ⟨c', by rwa [State.ctx, contexts] at live, id, id⟩) counter

theorem setCtx {i : Fin 2} {c c' : ShellContext} (live : s.ctx i = some c) (goes : c.Goes c') : (s.setCtx i (some c')).ContextsLawful := by
  refine law.goes (fun j d e => ?_) rfl
  by_cases same : j = i
  · subst same
    rw [State.setCtx_ctx] at e
    exact ⟨c, live, Option.some.inj e ▸ goes⟩
  · rw [State.setCtx_ctx_other _ _ same] at e
    exact ⟨d, e, id, id⟩

/-- A slot becomes FREE. -/
theorem freed (i : Fin 2) : (s.setCtx i none).ContextsLawful := by
  refine law.goes (fun j d e => ?_) rfl
  by_cases same : j = i
  · rw [same, State.setCtx_ctx] at e
    cases e
  · rw [State.setCtx_ctx_other _ _ same] at e
    exact ⟨d, e, id, id⟩

/-- A shell enters while no other stands before its tail; its number is the counter's, which goes on to the next (R76, R77). -/
theorem withShell {i : Fin 2} {c : ShellContext} (alone : s.anyCtx ShellContext.beforeTail = false) (phase : c.phase = .entering)
    (shell : c.shell = s.mtr.shellCounter) (tail : c.encTail = none ∧ c.length = none) (older : Fin 2) (product : Option (Fin 16)) :
    (s.withShell i c older product).ContextsLawful := by
  obtain ⟨lawful, -, least, most⟩ := law
  obtain ⟨untailed, unmeasured⟩ := tail
  have entered : (s.withShell i c older product).ctx i = some c := s.setCtx_ctx i (some c)
  have others (j : Fin 2) (n : j ≠ i) : (s.withShell i c older product).ctx j = s.ctx j := s.setCtx_ctx_other (some c) n
  obtain ⟨first, second⟩ : (s.ctx 0).any ShellContext.beforeTail = false ∧ (s.ctx 1).any ShellContext.beforeTail = false := by
    simpa [State.anyCtx] using alone
  refine ⟨fun j d e => ?_, fun both => ?_, ?_⟩
  · by_cases same : j = i
    · rw [same, entered] at e
      obtain rfl := Option.some.inj e
      exact ⟨by simp [phase], by omega, by omega, by simp [untailed, phase], by simp [unmeasured, phase]⟩
    · rw [others j same] at e
      exact lawful j d e
  · match i with
    | 0 => rw [others 1 (by decide), second] at both; exact Bool.false_ne_true both.2
    | 1 => rw [others 0 (by decide), first] at both; exact Bool.false_ne_true both.1
  · change 1 ≤ nextShell s.mtr.shellCounter ∧ nextShell s.mtr.shellCounter ≤ 65535
    unfold nextShell
    split_ifs <;> omega

end State.ContextsLawful

/-! ### Claimants and transmitters (R157, R159) -/

/-- Nothing waits for the upstream transmitter. -/
def State.NothingWaits (s : State) : Prop :=
  s.lcp.slot = none ∧ s.rqu.notices = Notices.empty ∧ s.lcp.up = [] ∧ s.rqu.entries = []

theorem Notices.eq_empty {n : Notices} (quiet : n.any = false) : n = Notices.empty := by
  obtain ⟨a, b, c, d, e, f, g⟩ := n
  simp only [Notices.any, Bool.or_eq_false_iff] at quiet
  obtain ⟨⟨⟨⟨⟨⟨rfl, rfl⟩, rfl⟩, rfl⟩, rfl⟩, rfl⟩, rfl⟩ := quiet
  rfl

theorem State.sendAnswer_upTx (s : State) (f : LineFrame) : (s.sendAnswer f).lcp.upTx = some f := by
  unfold State.sendAnswer
  dsimp only
  split <;> rfl

/-- The arbiter leaves the transmitter idle only when nothing waits for it. -/
theorem State.arbitrate_serves (s : State) : s.arbitrate.lcp.upTx ≠ none ∨ s.arbitrate.NothingWaits := by
  rcases s.arbitrate_cases with ⟨f, -, e⟩ | ⟨-, -, e⟩ | ⟨-, -, f, rest, -, -, e⟩ | ⟨-, -, r, rest, -, -, e⟩
    | ⟨slot, quiet, up, entries, e⟩ <;> rw [e]
  · rw [State.sendAnswer_upTx]
    exact .inl nofun
  · exact .inl nofun
  · exact .inl nofun
  · exact .inl nofun
  · exact .inr ⟨slot, Notices.eq_empty quiet, up, entries⟩

theorem State.chooseFirst_serves (s : State) (c : Claimant) : (s.chooseFirst c).lcp.upTx ≠ none ∨ (s.chooseFirst c).NothingWaits := by
  rcases s.chooseFirst_cases c with e | ⟨-, -, e⟩ | ⟨-, f, rest, -, e⟩ | ⟨-, r, rest, -, e⟩ <;> rw [e]
  · exact s.arbitrate_serves
  · exact .inl nofun
  · exact .inl nofun
  · exact .inl nofun

/-- Within a step nothing waits for an idle upstream transmitter until a claimant is remembered, and nothing for an idle downstream
transmitter. -/
def State.Served (s : State) : Prop :=
  (s.ready = none → s.lcp.upTx = none → s.NothingWaits) ∧ (s.lcp.downTx = none → s.lcp.down = [])

/-- The laws of ownership within a step. -/
def State.Owned (s : State) : Prop :=
  s.ContextsLawful ∧ s.MoreOnlyHeld ∧ s.AddressOwn ∧ s.Served

/-- Between two events, where no claimant is remembered, they are the laws of `State.Ownership`. -/
theorem State.ownership_iff (s : State) : s.Ownership ↔ (s.setReady none).Owned := by
  have served : s.IdleMeansNothingWaits ↔ (s.setReady none).Served := and_congr_left' ⟨fun law _ => law, fun law => law rfl⟩
  exact and_congr_right' (and_congr_right' (and_congr_right' served))

namespace State.Served

variable {s : State} (law : s.Served)
include law

theorem congr {s' : State} (ready : s'.ready = s.ready) (upTx : s'.lcp.upTx = s.lcp.upTx) (slot : s'.lcp.slot = s.lcp.slot)
    (notices : s'.rqu.notices = s.rqu.notices) (up : s'.lcp.up = s.lcp.up) (entries : s'.rqu.entries = s.rqu.entries)
    (downTx : s'.lcp.downTx = s.lcp.downTx) (down : s'.lcp.down = s.lcp.down) : s'.Served := by
  rw [State.Served, State.NothingWaits, ready, upTx, slot, notices, up, entries, downTx, down]
  exact law

/-- Once a claimant is remembered, anything may wait upstream. -/
theorem claimed (lcp : Lcp) (rqu : Rqu) (c : Claimant) (downTx : lcp.downTx = s.lcp.downTx) (down : lcp.down = s.lcp.down) :
    (((s.setLcp lcp).setRqu rqu).claim c).Served := by
  refine ⟨fun free => ?_, fun idle => ?_⟩
  · rw [State.claim_ready] at free
    cases held : s.ready <;> simp [held] at free
  · exact down.trans (law.2 (downTx.symm.trans idle))

/-- A downstream transmitter that is free takes what is in its buffer. -/
theorem downstreamFree : s.downstreamFree.Served := by
  rw [State.downstreamFree_eq]
  refine ⟨law.1, fun idle => ?_⟩
  have empty : s.lcp.down = [] := List.head?_eq_none_iff.1 idle
  change s.lcp.down.tail = []
  rw [empty]
  rfl

end State.Served

/-- After a choice, whatever waited. -/
theorem State.Served.of_choice {s' : State} (serves : s'.lcp.upTx ≠ none ∨ s'.NothingWaits)
    (down : s'.lcp.downTx = none → s'.lcp.down = []) :
    s'.Served :=
  ⟨fun _ idle => serves.resolve_left fun busy => busy idle, down⟩

theorem State.Served.settled {s : State} (law : s.Served) : (s.settled.setReady none).Served := by
  have frame := ChoiceFrame.settled s
  refine of_choice ?_ fun idle => ?_
  · unfold State.settled
    cases ready : s.ready with
    | none =>
      cases idle : s.lcp.upTx with
      | none => exact .inr (law.1 ready idle)
      | some f => exact .inl fun free => Option.some_ne_none f (idle.symm.trans free)
    | some c =>
      dsimp only
      split_ifs with busy
      · refine .inl fun idle => ?_
        have free : s.lcp.upTx = none := idle
        simp [free] at busy
      · exact s.chooseFirst_serves c
  · exact frame.down.trans (law.2 (frame.downTx.symm.trans idle))

/-! ### The moves -/

namespace State.Owned

variable {s : State} (law : s.Owned)
include law

theorem settled : (s.settled.setReady none).Owned := by
  obtain ⟨contexts, more, address, served⟩ := law
  have frame := ChoiceFrame.settled s
  refine ⟨contexts.congr (congrArg Mtr.contexts frame.mtr) (congrArg Mtr.shellCounter frame.mtr), ?_, ?_, served.settled⟩
  · change s.settled.cmu.more = true → s.settled.cmu.capture.isSome = true
    rw [frame.more, frame.capture]
    exact more
  · change s.settled.lcp.address.toNat ≤ 253
    rw [frame.address]
    exact address

theorem upFree : (s.setLcp { s.lcp with upTx := none }).arbitrate.Owned := by
  obtain ⟨contexts, more, address, served⟩ := law
  have frame := ChoiceFrame.arbitrate (s.setLcp { s.lcp with upTx := none })
  refine ⟨contexts.congr (congrArg Mtr.contexts frame.mtr) (congrArg Mtr.shellCounter frame.mtr), ?_, ?_,
    .of_choice (State.arbitrate_serves _) fun idle => frame.down.trans (served.2 (frame.downTx.symm.trans idle))⟩
  · rw [State.MoreOnlyHeld, frame.more, frame.capture]
    exact more
  · rw [State.AddressOwn, frame.address]
    exact address

/-- Every move keeps the laws within a step. -/
theorem move {s' : State} (x : Move s s') : s'.Owned := by
  obtain ⟨contexts, more, address, served⟩ := law
  have whole : s.Owned := ⟨contexts, more, address, served⟩
  cases x with
  | quiet same =>
    refine ⟨contexts.congr same.contexts same.shellCounter, ?_, ?_,
      served.congr same.ready same.upTx same.slot (by rw [same.rqu]) same.up (by rw [same.rqu]) same.downTx same.down⟩
    · rw [State.MoreOnlyHeld, same.more, same.capture]
      exact more
    · rw [State.AddressOwn, same.address]
      exact address
  | notice n => exact ⟨contexts.congr rfl rfl, more, address, served.claimed s.lcp { s.rqu with notices := n } _ rfl rfl⟩
  | capture c held => exact ⟨contexts.congr rfl rfl, held, address, served⟩
  | sample x newest => exact ⟨contexts.congr rfl rfl, more, address, served⟩
  | announced p room => exact ⟨contexts.congr rfl rfl, more, address, served⟩
  | shotHeld x room new => exact ⟨contexts.congr rfl rfl, more, address, served⟩
  | gateHeld g room => exact ⟨contexts.congr rfl rfl, more, address, served⟩
  | itemTaken i rest front => exact ⟨contexts.congr rfl rfl, more, address, served⟩
  | context i c c' live goes => exact ⟨contexts.setCtx live goes, more, address, served⟩
  | shellEnters i c older product free alone phase shell tail =>
    refine ⟨contexts.withShell alone phase shell tail older product, more, address, fun ready idle => ?_, served.2⟩
    obtain ⟨slot, notices, up, entries⟩ := served.1 ready idle
    refine ⟨slot, notices, up, ?_⟩
    change s.rqu.entriesWithRoom = []
    unfold Rqu.entriesWithRoom
    rw [entries]
    split_ifs <;> rfl
  | shellEnds i c r live =>
    have claimed : (s.queueShellReport r).Served :=
      served.claimed s.lcp { s.rqu with entries := s.rqu.entries ++ [.shell r], reservations := s.rqu.reservations - 1 } _ rfl rfl
    exact ⟨ContextsLawful.freed (s := s.queueShellReport r) (contexts.congr rfl rfl) i, more, address, claimed⟩
  | window w kept => exact ⟨contexts.congr rfl rfl, more, address, served⟩
  | segmentOpens r room new => exact ⟨contexts.congr rfl rfl, more, address, served⟩
  | segmentReplaces v r victim new => exact ⟨contexts.congr rfl rfl, more, address, served⟩
  | segmentOffered r accepted =>
    exact ⟨contexts.congr rfl rfl, more, address,
      served.claimed s.lcp { s.rqu with entries := s.rqu.entries ++ [.segment r] } _ rfl rfl⟩
  | entersDown f room =>
    unfold State.takeDown
    split_ifs with busy
    · exact ⟨contexts.congr rfl rfl, more, address, served.1, fun idle => by
        have free : s.lcp.downTx = none := idle
        simp [free] at busy⟩
    · rw [State.downstreamFree_eq]
      refine ⟨contexts.congr rfl rfl, more, address, served.1, fun idle => ?_⟩
      simp at idle
  | entersUp f room => exact ⟨contexts.congr rfl rfl, more, address, served.claimed { s.lcp with up := s.lcp.up ++ [f] } s.rqu _ rfl rfl⟩
  | answers f => exact ⟨contexts.congr rfl rfl, more, address, served.claimed { s.lcp with slot := some f } s.rqu _ rfl rfl⟩
  | readdressed a own => exact ⟨contexts.congr rfl rfl, more, own, served⟩
  | downFree =>
    have taken := served.downstreamFree
    rw [State.downstreamFree_eq] at taken ⊢
    exact ⟨contexts.congr rfl rfl, more, address, taken⟩
  | upFree => exact whole.upFree
  | restarts t cut =>
    obtain ⟨-, -, numbered⟩ := contexts
    have free (i : Fin 2) : (s.restart t cut).ctx i = none := Vector.getElem_replicate _
    refine ⟨⟨fun i c live => ?_, fun both => ?_, numbered⟩, more, address, fun ready idle => ?_, served.2⟩
    · rw [free] at live
      cases live
    · rw [free] at both
      cases both.1
    · obtain ⟨-, -, up, -⟩ := served.1 ready idle
      exact ⟨rfl, rfl, up, rfl⟩
  | coldResets cut =>
    have free (i : Fin 2) : (s.coldReset cut).ctx i = none := Vector.getElem_replicate _
    refine ⟨⟨fun i c live => ?_, fun both => ?_, Nat.le_refl 1, Nat.le_add_left 1 65534⟩, nofun, Nat.zero_le 253,
      fun _ _ => ⟨rfl, rfl, rfl, rfl⟩, fun _ => rfl⟩
    · rw [free] at live
      cases live
    · rw [free] at both
      cases both.1

end State.Owned

/-- Settles O59: every move keeps the laws as they hold within a step, and after the choice at its end they hold with no claimant
remembered. -/
theorem stepKeepsOwnership : Obligations.StepKeepsOwnership := by
  intro s s' held next
  rw [State.ownership_iff] at held ⊢
  exact law_of_moves (fun _ _ x law => State.Owned.move law x) (fun _ law => State.Owned.settled law) held next

end Sys2Proof.Machine
end

section
/-! PROOFS. COLD_RESET and RST_RISE (R90, R161, R182, R205, R211), and ANNOUNCE (R79). -/

namespace Sys2Proof.Machine

/-! ### The resets -/

theorem exec_rstRise {s : State} (low : s.rstHigh = false) (t : PartTime) : exec (.rstRise t) s = .next (s.setTime t).rstRise := by
  change Host.Outcome.next (if s.rstHigh = true then s.setTime t else (s.setTime t).rstRise) = _
  rw [if_neg (by simp [low])]

/-- Settles O5: a cold reset is one update of the whole state, and so is the rise of RST while the part is held. -/
theorem coldResetAndRise : Obligations.ColdResetAndRise :=
  ⟨fun _ _ _ => rfl, fun t _ low => exec_rstRise low t⟩

/-! ### ANNOUNCE (R79) -/

/-- ANNOUNCE, taken: the answer of its owner, which raises no notice. -/
theorem exec_announce_answered {s u : State} {h : CommandHeader} (takes : s.takes h = true) {t : PartTime} {p : Byte} {status : Status}
    (ready : u.ready = s.ready) (acts : (s.begun t).actAnnounce [p] = ⟨u.begun t, status, []⟩) :
    exec (.announce t h [p]) s = .next (u.withAnswer t h status.code []) :=
  congrArg _ (State.commandArrives_answered takes ready (code := 5) (args := [p]) (cut := Cut.nothing) acts)

section
variable {s : State} {p : Byte}

theorem State.actAnnounce_index (above : 15 < p.toNat) : s.actAnnounce [p] = ⟨s, .badIndex, []⟩ := by
  rw [State.actAnnounce, field_byte, if_pos above]

theorem State.actAnnounce_full (index : p.toNat ≤ 15) (full : 4 ≤ s.mtr.announce.length) : s.actAnnounce [p] = ⟨s, .full, []⟩ := by
  rw [State.actAnnounce, field_byte, if_neg (by omega), if_pos full]

theorem State.actAnnounce_room {i : Fin 16} (named : p.toNat = i.val) (room : s.mtr.announce.length < 4) :
    s.actAnnounce [p] = ⟨s.setMtr { s.mtr with announce := s.mtr.announce ++ [i] }, .done, []⟩ := by
  have appended : Fin.ofNat 16 i.val = i := Fin.ofNat_val_eq_self i
  rw [State.actAnnounce, field_byte, named, if_neg (by omega), if_neg (by omega), appended]

end

/-- Settles O16: each row is one of the owner's answers. -/
theorem announceAppends : Obligations.AnnounceAppends := by
  intro t h s p takes
  refine ⟨fun above => ?_, fun index full => ?_, fun i named room => ?_⟩
  · exact exec_announce_answered takes (status := .badIndex) rfl (State.actAnnounce_index above)
  · exact exec_announce_answered takes (status := .full) rfl (State.actAnnounce_full (s := s.begun t) index full)
  · exact exec_announce_answered takes (status := .done) rfl (State.actAnnounce_room (s := s.begun t) named room)

end Sys2Proof.Machine
end

section
/-! PROOFS. Motion reports (R67, R68, R99, R101, R102, R203): the refused ones, and the resolution pass of an accepted sample. -/

namespace Sys2Proof.Machine

section
variable {s : State} (hears : s.hearsHeadLink = true) (t : PartTime)
include hears

/-- A motion report received is a step of the part that acts on its payload (R203). -/
theorem exec_motionReport (payload : Bytes) :
    exec (.motionReport t 14 payload) s = .next (((s.begun t).motionFrame t payload).settled.setReady s.ready) := by
  obtain ⟨rst, listens⟩ : s.rstHigh = true ∧ s.hlp.discarding = false := by simpa [State.hearsHeadLink] using hears
  have routed : (s.begun t).headArrival t ⟨14, kindMotionReport, payload⟩ = (s.begun t).motionFrame t payload := by
    have other : ¬ (kindMotionReport = kindShotReport ∧ 1 ≤ (14 : Byte).toNat ∧ (14 : Byte).toNat ≤ 8) :=
      fun same => absurd same.1 (by decide)
    rw [State.headArrival, if_neg (by simp [State.begun, listens]), if_neg other, if_pos ⟨rfl, rfl⟩]
  exact congrArg _ ((acting_of_rstHigh rst t _).trans (by rw [routed]))

/-- A motion report that is refused is captured, and has no other effect. -/
theorem exec_motionReport_captured {payload : Bytes} {kind : CaptureKind} {detail : Nat}
    (refused : (s.begun t).motionFrame t payload = (s.begun t).report kind .headLink t detail) :
    exec (.motionReport t 14 payload) s = .next (({ s with partTime := t } : State).captures kind .headLink t detail) := by
  rw [exec_motionReport hears, refused]
  exact congrArg _ (State.settled_report { s with partTime := t } kind .headLink t detail)

end

theorem State.motionFrame_length {s : State} (t : PartTime) {payload : Bytes} (length : payload.length = 11) :
    s.motionFrame t payload = s.motionSample t (readMotion payload).1 (readMotion payload).2 :=
  if_pos length

/-- Settles O37: each form is discarded, or reported before the history is touched. -/
theorem motionReportsRefused : Obligations.MotionReportsRefused := by
  intro t s payload hears
  refine ⟨fun length fault => ?_, fun length sound ⟨n, newest, late⟩ => ?_, fun length short => ?_⟩
  · rw [exec_motionReport hears, State.motionFrame_length t length, State.motionSample, if_pos fault]
    rfl
  · have refused : ((s.begun t).mtr.history.getLast?.any fun n => !earlier n.tau (readMotion payload).1.tau) = true := by
      simp [State.begun, newest, late]
    refine exec_motionReport_captured hears t ?_
    rw [State.motionFrame_length t length, State.motionSample, if_neg (by simp [sound]), if_pos refused]
  · refine exec_motionReport_captured hears t ?_
    rw [State.motionFrame, if_neg length, show min 65535 (5 + payload.length) = 5 + payload.length by omega]

/-! ### The resolution pass (R99, R101) -/

/-- An item leaves the front of the queue and is resolved (R99, R101). -/
def State.resolveFront (s : State) (i : Item) : State :=
  (s.setRsq ⟨s.rsq.items.drop 1⟩).resolveItem i

theorem State.resolveFront_items (s : State) (i : Item) : (s.resolveFront i).rsq.items = s.rsq.items.drop 1 :=
  congrArg Rsq.items (ResolutionFrame.resolveItem _ i).rsq

/-- The pass over a queue is the resolution, one after another, of the items before the first that is later than the sample. -/
theorem State.passItems_eq_foldl {tau : PartTime} {items : List Item} {n : Nat} (taken : ∀ i ∈ items.take n, earlier tau i.time = false)
    (stop : ∀ i, (items.drop n).head? = some i → earlier tau i.time = true) (s : State) (queue : s.rsq.items = items) :
    s.passItems tau items = (items.take n).foldl State.resolveFront s := by
  induction items generalizing n s with
  | nil => rw [List.take_nil]; rfl
  | cons i rest ih =>
    unfold State.passItems
    cases n with
    | zero => exact if_pos (stop i rfl)
    | succ n =>
      have front : (s.setRsq { s.rsq with items := rest }).resolveItem i = s.resolveFront i := by
        rw [State.resolveFront, queue]
        rfl
      rw [if_neg (by simp [taken i List.mem_cons_self]), front]
      exact ih (fun j mem => taken j (List.mem_cons_of_mem i mem)) stop (s.resolveFront i) (by rw [State.resolveFront_items, queue]; rfl)

/-- The history of eight after a sample more, in the words of R67. -/
theorem pushSample_eq {history : List Sample} (bound : history.length ≤ 8) (x : Sample) :
    pushSample history x = (if history.length = 8 then history.drop 1 else history) ++ [x] := by
  unfold pushSample
  split_ifs with full
  · rw [full, List.drop_append_of_le_length (by omega)]
  · rw [show history.length + 1 - 8 = 0 by omega, List.drop_zero]

/-- An accepted sample joins the history and its pass is run (R67, R68). -/
theorem State.motionSample_accepted {s : State} {x : Sample} (newest : ∀ n, s.mtr.history.getLast? = some n → earlier n.tau x.tau = true)
    (bound : s.mtr.history.length ≤ 8) (t : PartTime) :
    s.motionSample t x false = (s.setMtr { s.mtr with
      history := (if s.mtr.history.length = 8 then s.mtr.history.drop 1 else s.mtr.history) ++ [x] }).resolutionPass x := by
  have inOrder : ¬ (s.mtr.history.getLast?.any fun n => !earlier n.tau x.tau) = true := by
    rw [Option.any_eq_true]
    rintro ⟨n, last, late⟩
    rw [newest n last] at late
    cases late
  rw [State.motionSample, if_neg Bool.false_ne_true, if_neg inOrder, pushSample_eq bound]

/-- What a resolution leaves alone that an idle transmitter's choice follows. -/
structure WholeResolutionFrame (s s' : State) : Prop where
  history : s'.mtr.history = s.mtr.history
  rsq     : s'.rsq = s.rsq
  fsc     : s'.fsc = s.fsc
  hlp     : s'.hlp = s.hlp
  tst     : s'.tst = s.tst
  lcp     : s.lcp.upTx ≠ none → s'.lcp = s.lcp
  request : s'.hcu.request = s.hcu.request
  pointer : s'.hcu.pointer = s.hcu.pointer
  timer   : s'.hcu.timer = s.hcu.timer
  gateA   : s'.mtr.gateA = s.mtr.gateA
  gateB   : s'.mtr.gateB = s.mtr.gateB

theorem ResolutionFrame.settled {s r : State} (frame : ResolutionFrame s r) (x : Option Claimant) :
    WholeResolutionFrame s (r.settled.setReady x) := by
  have choice := ChoiceFrame.settled r
  have mtr : (r.settled.setReady x).mtr = r.mtr := choice.mtr
  have hcu : (r.settled.setReady x).hcu = r.hcu := choice.hcu
  constructor
  · rw [mtr, frame.history]
  · exact choice.rsq.trans frame.rsq
  · exact choice.fsc.trans frame.fsc
  · exact choice.hlp.trans frame.hlp
  · exact choice.tst.trans frame.tst
  · intro busy
    rw [State.setReady_lcp, State.settled_same r (.inr (by rwa [frame.lcp])), frame.lcp]
  · rw [hcu, frame.request]
  · rw [hcu, frame.pointer]
  · rw [hcu, frame.timer]
  · rw [mtr, frame.gateA]
  · rw [mtr, frame.gateB]

/-- Settles O36: the pass is the run of resolutions that R99 says, and its frame, with those of the checks and of the choice, gives the
rest. -/
theorem motionSampleResolves : Obligations.MotionSampleResolves := by
  intro t s payload hears length sound newest bound history begun resolved
  set x := (readMotion payload).1
  have accepted : (s.begun t).motionSample t x (readMotion payload).2 = begun.resolutionPass x := by
    rw [sound]
    exact State.motionSample_accepted (s := s.begun t) newest bound t
  obtain ⟨n, -, taken, stop, pass⟩ := State.passItems_spec x.tau s.rsq.items begun rfl
  have run : begun.passItems x.tau s.rsq.items = resolved n := State.passItems_eq_foldl taken stop begun rfl
  rw [run] at pass
  have frame := (pass.trans (.endOfPass (resolved n) x.enc)).settled s.ready
  refine ⟨_, n, ?_, taken, stop, rfl, frame.history, congrArg Rsq.items frame.rsq, frame.fsc, frame.hlp, frame.tst, frame.lcp,
    frame.request, frame.pointer, frame.timer, frame.gateA, frame.gateB⟩
  have whole : begun.resolutionPass x = (resolved n).endOfPass x.enc := by rw [State.resolutionPass, ← run]
  rw [exec_motionReport hears, State.motionFrame_length t length, accepted, whole]
  rfl

end Sys2Proof.Machine
end

section
/-! PROOFS. The gate filters (R73, R74) and the arrival of a gate edge at RSQ (R97, R98). -/

namespace Sys2Proof.Machine

/-! ### The filter of a line -/

section
variable (s : State) (line : GateLine) (f g : GateFilter)

@[simp] theorem State.setFilter_filter : (s.setFilter line f).filter line = f := by
  cases line <;> rfl

@[simp] theorem State.setFilter_setFilter : (s.setFilter line f).setFilter line g = s.setFilter line g := by
  cases line <;> rfl

@[simp] theorem State.setFilter_ready : (s.setFilter line f).ready = s.ready := by
  cases line <;> rfl

end

/-! ### A taken change (R73, R74) -/

/-- The settled level of a filter becomes the other, and its pending change is over. -/
def GateFilter.taken (f : GateFilter) : GateFilter :=
  { f with settled := !f.settled, pending := none }

/-- A taken GATE_B fall goes no further (R74). -/
theorem State.takeEdge_fallB {s : State} (high : (s.filter .b).settled = true) (date : PartTime) :
    s.takeEdge .b date = s.setFilter .b (s.filter .b).taken := by
  simp [State.takeEdge, GateFilter.taken, high]

/-- Any other taken change goes on to RSQ as an edge (R73, R97). -/
theorem State.takeEdge_handed {s : State} {line : GateLine} (handed : line = .a ∨ (s.filter line).settled = false) (date : PartTime) :
    s.takeEdge line date
      = (s.setFilter line (s.filter line).taken).gateArrival ⟨line, !(s.filter line).settled, date⟩ := by
  unfold State.takeEdge GateFilter.taken
  cases line with
  | a => rfl
  | b =>
    have low : (s.filter .b).settled = false := handed.resolve_left nofun
    rw [low]
    rfl

/-- An edge handed on at the end of a step, as the whole step. -/
theorem State.handsOn_of_setReady {s : State} {g : GateEdge} {x : Option Claimant} (ready : s.ready = x) :
    ((s.setReady none).gateArrival g).settled.setReady x = s.handsOn g := by
  rw [State.handsOn, whole, ready]

/-! ### GATE_LINE_CHANGE (R73) -/

/-- The line of a filter is at a level. -/
def GateFilter.follows (f : GateFilter) (high : Bool) : GateFilter :=
  { f with line := high }

section
variable {s : State} {line : GateLine} {high : Bool}

theorem exec_gateLineChange (rst : s.rstHigh = true) (t : PartTime) :
    exec (.gateLineChange t line high) s = .next (((s.begun t).lineChange line t high).settled.setReady s.ready) :=
  congrArg _ (if_pos rst)

theorem State.lineChange_same (same : (s.filter line).line = high) (t : PartTime) : s.lineChange line t high = s :=
  if_pos same

variable (moved : (s.filter line).line ≠ high) (t : PartTime)
include moved

/-- Back to the settled level: the pending change is discarded. -/
theorem State.lineChange_back (back : high = (s.filter line).settled) :
    s.lineChange line t high = s.setFilter line ⟨high, (s.filter line).settled, none⟩ := by
  rw [State.lineChange, if_neg moved, if_pos back]
  simp

/-- Away from the settled level: a change begins. -/
theorem State.lineChange_away (away : high ≠ (s.filter line).settled) :
    s.lineChange line t high = (s.setFilter line ((s.filter line).follows high)).beginChange line t :=
  (if_neg moved).trans (if_neg away)

end

theorem State.beginChange_pending {s : State} (lasting : s.track.filterTime ≠ 0) (line : GateLine) (t : PartTime) :
    s.beginChange line t = s.setFilter line { s.filter line with pending := some ⟨t, s.track.filterTime⟩ } :=
  if_neg lasting

theorem State.beginChange_taken {s : State} (immediate : s.track.filterTime = 0) (line : GateLine) (t : PartTime) :
    s.beginChange line t = s.takeEdge line t :=
  if_pos immediate

theorem State.setFilter_track (s : State) (line : GateLine) (f : GateFilter) : (s.setFilter line f).track = s.track := by
  cases line <;> rfl

/-! ### As whole steps -/

section
variable (s : State) (t : PartTime) (line : GateLine) (f : GateFilter)

/-- The state at part time `t` with the filter of a line replaced. -/
def State.filtered : State :=
  ({ s with partTime := t } : State).setFilter line f

theorem State.filtered_ready : (s.filtered t line f).ready = s.ready :=
  State.setFilter_ready _ line f

theorem State.filter_begun : (s.begun t).filter line = s.filter line := by
  cases line <;> rfl

theorem State.begun_setFilter : (s.begun t).setFilter line f = (s.filtered t line f).setReady none := by
  cases line <;> rfl

/-- A filter alone changes, and nothing claims the transmitter. -/
theorem State.settled_filtered : ((s.begun t).setFilter line f).settled.setReady s.ready = s.filtered t line f := by
  cases line <;> rfl

/-- The filter changes and an edge is handed on. -/
theorem State.settled_handed (g : GateEdge) :
    (((s.begun t).setFilter line f).gateArrival g).settled.setReady s.ready = (s.filtered t line f).handsOn g := by
  rw [State.begun_setFilter, State.handsOn_of_setReady (s.filtered_ready t line f)]

end

/-- Settles O43: the rows of R73 on the line's level, the settled level and the filter time. -/
theorem gateLineChangeFilters : Obligations.GateLineChangeFilters := by
  intro t s line high rst taken
  simp only [exec_gateLineChange rst, Host.Outcome.next.injEq]
  have filter := s.filter_begun t line
  refine ⟨fun same => ?_, fun moved away lasting => ?_, fun moved away immediate => ?_, fun moved back => ?_⟩
  · rw [State.lineChange_same (by rw [filter, same])]
    rfl
  · rw [State.lineChange_away (by rwa [filter]) t (by rwa [filter]), State.beginChange_pending (by rwa [State.setFilter_track]),
      State.setFilter_filter, State.setFilter_setFilter, State.setFilter_track, filter]
    exact s.settled_filtered t line _
  · have other : (!(s.filter line).settled) = high := (Bool.eq_not_of_ne away).symm
    have change : ((s.filter line).follows high).taken = ⟨high, high, none⟩ := by rw [← other]; rfl
    rw [State.lineChange_away (by rwa [filter]) t (by rwa [filter]), State.beginChange_taken (by rwa [State.setFilter_track]), filter]
    refine ⟨?_, fun handed => ?_⟩
    · rintro rfl rfl
      rw [State.takeEdge_fallB (by simpa [GateFilter.follows] using other), State.setFilter_filter, State.setFilter_setFilter, change]
      exact s.settled_filtered t .b _
    · rw [State.takeEdge_handed (handed.imp_right fun rise => by simpa [GateFilter.follows, rise] using other), State.setFilter_filter,
        State.setFilter_setFilter, change]
      change (((s.begun t).setFilter line _).gateArrival ⟨line, !(s.filter line).settled, t⟩).settled.setReady _ = _
      rw [other]
      exact s.settled_handed t line _ _
  · rw [State.lineChange_back (by rwa [filter]) t (by rwa [filter]), filter]
    exact s.settled_filtered t line _

/-! ### GATE_FILTER_EXPIRY (R73) and the arrival of an edge (R97, R98) -/

theorem exec_gateFilterExpiry {s : State} {line : GateLine} {x : PendingChange} (rst : s.rstHigh = true)
    (pending : (s.filter line).pending = some x) :
    exec (.gateFilterExpiry line) s
      = .next (((s.begun (later x.since x.filterTime)).takeEdge line x.since).settled.setReady s.ready) := by
  have expires : (s.setReady none).filterExpiry line = (s.begun (later x.since x.filterTime)).takeEdge line x.since := by
    have pending' : ((s.setReady none).filter line).pending = some x := by cases line <;> exact pending
    rw [State.filterExpiry, pending']
    rfl
  exact congrArg _ ((actingTimed_of_rstHigh rst _).trans (by rw [expires]))

section
variable {s : State} {g : GateEdge}

theorem notAfterNewest_of_earlier {history : List Sample} {t : PartTime}
    (after : ∀ n, history.getLast? = some n → earlier n.tau t = true) : notAfterNewest history t = false := by
  unfold notAfterNewest
  cases last : history.getLast? with
  | none => rfl
  | some n => simp [after n last]

theorem State.handsOn_held (after : ∀ n, s.mtr.history.getLast? = some n → earlier n.tau g.date = true) (room : s.rsq.gates < 4) :
    s.handsOn g = { s with rsq := ⟨insertItem (.gate g) s.rsq.items⟩ } := by
  have held : (s.setReady none).gateArrival g = (s.setReady none).hold (.gate g) := by
    rw [State.gateArrival, State.setReady_mtr, notAfterNewest_of_earlier after, if_neg Bool.false_ne_true, State.setReady_rsq,
      if_neg (by omega)]
  rw [← State.handsOn_of_setReady rfl, held]
  rfl

theorem State.handsOn_lost (after : ∀ n, s.mtr.history.getLast? = some n → earlier n.tau g.date = true) (full : 4 ≤ s.rsq.gates) :
    s.handsOn g = s.captures .gateOverflow .gates g.date (gateDetail g.line g.rise) := by
  have lost : (s.setReady none).gateArrival g = (s.setReady none).report .gateOverflow .gates g.date (gateDetail g.line g.rise) := by
    rw [State.gateArrival, State.setReady_mtr, notAfterNewest_of_earlier after, if_neg Bool.false_ne_true, State.setReady_rsq,
      if_pos full]
  rw [← State.handsOn_of_setReady rfl, lost, State.settled_report]

theorem State.handsOn_resolved {n : Sample} (last : s.mtr.history.getLast? = some n) (reached : earlier n.tau g.date = false) :
    s.handsOn g = { (({ s with ready := none } : State).resolveGate g).settled with ready := s.ready } := by
  have resolved : (s.setReady none).gateArrival g = (s.setReady none).resolveGate g := by
    rw [State.gateArrival, if_pos (by simp [notAfterNewest, last, reached])]
  rw [← State.handsOn_of_setReady rfl, resolved]
  rfl

end

/-- Settles O44: the taken change, then the rows of an arriving edge. -/
theorem gateFilterTakesEdge : Obligations.GateFilterTakesEdge := by
  refine ⟨fun s line x rst pending => ?_, fun s g => ⟨fun after => ⟨State.handsOn_held after, State.handsOn_lost after⟩,
    fun n last reached => State.handsOn_resolved last reached⟩⟩
  intro rise taken
  rw [exec_gateFilterExpiry rst pending]
  have filter := s.filter_begun (later x.since x.filterTime) line
  refine ⟨?_, fun handed => congrArg _ ?_⟩
  · rintro rfl fall
    have high : (s.filter .b).settled = true := by simpa [rise] using fall
    rw [State.takeEdge_fallB (by rw [filter, high]), filter]
    exact congrArg _ (s.settled_filtered _ .b _)
  · have low : line = .a ∨ (s.filter line).settled = false := handed.imp_right fun up => by simpa [rise] using up
    rw [State.takeEdge_handed (by rwa [filter]), filter]
    exact s.settled_handed _ line _ _

end Sys2Proof.Machine
end

section
/-! PROOFS. The motion at a time (R69, R70, R72): the bracket in an ordered history, the interpolation, and the motion of a gate edge. -/

namespace Sys2Proof.Machine

/-! ### Interpolation (R70) -/

theorem roundDivInt_zero (b : Nat) : roundDivInt 0 b = 0 := by
  have none_over : b / (2 * b) = 0 := by
    rcases Nat.eq_zero_or_pos b with rfl | pos
    · rfl
    · exact Nat.div_eq_of_lt (by omega)
  simp [roundDivInt, roundDiv, none_over]

theorem roundDiv_mul (a : Nat) {b : Nat} (pos : 0 < b) : roundDiv (a * b) b = a :=
  le_antisymm (roundDiv_le pos le_rfl) (le_roundDiv pos le_rfl)

theorem roundDivInt_mul (a : Int) {b : Nat} (pos : 0 < b) : roundDivInt (a * b) b = a := by
  have whole : roundDiv (a * b).natAbs b = a.natAbs := by rw [Int.natAbs_mul, Int.natAbs_natCast, roundDiv_mul _ pos]
  have sign : a * b < 0 ↔ a < 0 := ⟨fun neg => by nlinarith, fun neg => by nlinarith⟩
  simp only [roundDivInt, whole, sign]
  split_ifs <;> omega

theorem elapsed_self (t : PartTime) : elapsed t t = 0 := by
  simp [elapsed]

section
variable (a b : Sample)

theorem motionIn_first : motionIn (a, b) a.tau = ⟨a.enc, a.rho⟩ := by
  simp [motionIn, elapsed_self, roundDivInt_zero]

theorem motionIn_last (apart : span (a, b) ≠ 0) : motionIn (a, b) b.tau = ⟨b.enc, b.rho⟩ := by
  have whole : elapsed a.tau b.tau = span (a, b) := rfl
  have pos := Nat.pos_of_ne_zero apart
  simp only [motionIn, whole, roundDivInt_mul _ pos, countDiff, angleDiff, BitVec.ofInt_toInt, add_sub_cancel]

theorem span_pos {a b : Sample} (apart : b.tau ≠ a.tau) : 0 < span (a, b) := by
  refine Nat.pos_of_ne_zero fun zero => apart ?_
  have same : b.tau - a.tau = 0 := BitVec.eq_of_toNat_eq zero
  exact sub_eq_zero.1 same

end

/-! ### The bracket (R69) -/

theorem earlier_self (t : PartTime) : earlier t t = false := by
  simp [earlier]

theorem bracket_eq_some {history : List Sample} {t : PartTime} {lo hi : Sample} :
    bracket history t = some (lo, hi) ↔
      (history.filter fun x => !earlier t x.tau).getLast? = some lo ∧ history.find? (fun x => !earlier x.tau t) = some hi := by
  unfold bracket
  split
  · rename_i a b e f
    simp [e, f]
  · rename_i missing
    exact ⟨nofun, fun both => (missing _ _ both.1 both.2).elim⟩

theorem bracket_eq_none {history : List Sample} {t : PartTime} :
    bracket history t = none ↔ (∀ x ∈ history, earlier t x.tau = true) ∨ ∀ x ∈ history, earlier x.tau t = true := by
  have noLow : (history.filter fun x => !earlier t x.tau).getLast? = none ↔ ∀ x ∈ history, earlier t x.tau = true := by
    simp
  have noHigh : history.find? (fun x => !earlier x.tau t) = none ↔ ∀ x ∈ history, earlier x.tau t = true := by
    simp
  rw [← noLow, ← noHigh]
  unfold bracket
  cases (history.filter fun x => !earlier t x.tau).getLast? <;> cases history.find? fun x => !earlier x.tau t <;> simp

section
variable {history : List Sample} (ordered : history.Pairwise fun a b => earlier a.tau b.tau = true)
include ordered

/-- The bracket's first sample is the latest that is not later than the time. -/
theorem bracket_latest {t : PartTime} {lo hi : Sample} (found : bracket history t = some (lo, hi)) :
    lo ∈ history ∧ earlier t lo.tau = false ∧ ∀ x ∈ history, earlier t x.tau = false → x = lo ∨ earlier x.tau lo.tau = true := by
  simpa using getLast?_filter_latest history ordered _ lo (bracket_eq_some.1 found).1

/-- The bracket's second sample is the earliest that is not earlier than the time. -/
theorem bracket_earliest {t : PartTime} {lo hi : Sample} (found : bracket history t = some (lo, hi)) :
    hi ∈ history ∧ earlier hi.tau t = false ∧ ∀ x ∈ history, earlier x.tau t = false → x = hi ∨ earlier hi.tau x.tau = true := by
  simpa using find?_earliest history ordered _ hi (bracket_eq_some.1 found).2

/-- At its own time a held sample is on both sides. -/
theorem bracket_of_mem {x : Sample} (held : x ∈ history) : bracket history x.tau = some (x, x) := by
  cases found : bracket history x.tau with
  | none =>
    rcases bracket_eq_none.1 found with late | early
    · exact absurd (late x held) (by simp [earlier_self])
    · exact absurd (early x held) (by simp [earlier_self])
  | some b =>
    obtain ⟨lo, hi⟩ := b
    obtain ⟨-, notLater, latest⟩ := bracket_latest ordered found
    obtain ⟨-, notEarlier, earliest⟩ := bracket_earliest ordered found
    have low : x = lo := (latest x held (earlier_self x.tau)).resolve_right (by simp [notLater])
    have high : x = hi := (earliest x held (earlier_self x.tau)).resolve_right (by simp [notEarlier])
    rw [← low, ← high]

end

/-! ### A gate edge's motion (R72) -/

section
variable {o : Sample} {rest : List Sample} {date : PartTime}

theorem gateMotion_clamped (before : earlier date o.tau = true) : gateMotion (o :: rest) date = (⟨o.enc, o.rho⟩, true) :=
  if_pos before

theorem gateMotion_bracketed {b : Sample × Sample} (inside : earlier date o.tau = false) (found : bracket (o :: rest) date = some b) :
    gateMotion (o :: rest) date = (motionIn b date, false) := by
  have notBefore : ¬ beforeOldest (o :: rest) date = true := by simp [beforeOldest, inside]
  rw [gateMotion, if_neg notBefore, found]

end

/-- Settles O46: the searches over an ordered history, the rounded quotient at and between the samples, and the edge's rows. -/
theorem motionAtSamples : Obligations.MotionAtSamples := by
  refine ⟨fun a b => ⟨motionIn_first a b, motionIn_last a b⟩,
    fun history t ordered => ⟨fun lo hi found => ?_, bracket_eq_none, fun x held => ?_⟩, fun a b t apart => ?_, ?_, fun s date => ⟨rfl, rfl, rfl⟩⟩
  · exact ⟨bracket_latest ordered found, bracket_earliest ordered found⟩
  · exact bracket_of_mem ordered held
  · exact ⟨⟨_, rfl, roundDivInt_nearest _ _ (span_pos apart)⟩, ⟨_, rfl, roundDivInt_nearest _ _ (span_pos apart)⟩⟩
  · rintro history o rest date rfl
    exact ⟨gateMotion_clamped, fun b => gateMotion_bracketed⟩

end Sys2Proof.Machine
end

section
/-! PROOFS. The shell state machine at gates A and B (R72, R80 to R84), and the placement of a shot (R71, R86 to R89). -/

namespace Sys2Proof.Machine

section
variable {s : State} {i : Fin 2} {c : ShellContext}

theorem State.modCtx_live (live : s.ctx i = some c) (f : ShellContext → ShellContext) : s.modCtx i f = s.setCtx i (some (f c)) := by
  rw [State.modCtx, live]
  rfl

theorem ShellContext.holdsShots_iff (c : ShellContext) : c.holdsShots = true ↔ c.phase = .measuring ∨ c.phase = .tailing := by
  simp [ShellContext.holdsShots]

theorem ShellContext.beforeTail_iff (c : ShellContext) : c.beforeTail = true ↔ c.phase = .entering ∨ c.phase = .measuring := by
  simp [ShellContext.beforeTail]

theorem ShellContext.beforeTail_eq_false (c : ShellContext) : c.beforeTail = false ↔ c.phase ≠ .entering ∧ c.phase ≠ .measuring := by
  simp [ShellContext.beforeTail]

end

/-! ### The scale at gate B (R80, R81) -/

section
variable {x : Tracking} {diff : Int}

/-- The measured figure's distance from the nominal scale, in the units of the limit. -/
theorem scaleOff_le_iff (x : Tracking) (measured : Nat) :
    (max measured x.nominal - min measured x.nominal) * 1024 ≤ x.nominal * x.scaleLimit
      ↔ |(measured : Int) - x.nominal| * 1024 ≤ x.nominal * x.scaleLimit := by
  rw [← distance_eq_abs]
  exact_mod_cast Iff.rfl

theorem measuredScale_within (forward : 0 < diff)
    (within : |(roundDiv (x.gateDist * 65536) diff.toNat : Int) - x.nominal| * 1024 ≤ x.nominal * x.scaleLimit) :
    measuredScale x diff = some (roundDiv (x.gateDist * 65536) diff.toNat) := by
  rw [measuredScale, if_neg (by omega)]
  exact if_pos ((scaleOff_le_iff x _).2 within)

theorem measuredScale_refused (refused : diff ≤ 0
      ∨ (x.nominal * x.scaleLimit : Nat) < |(roundDiv (x.gateDist * 65536) diff.toNat : Int) - x.nominal| * 1024) :
    measuredScale x diff = none := by
  rcases refused with back | off
  · exact if_pos back
  · unfold measuredScale
    split_ifs with back
    · rfl
    · exact if_neg fun within => absurd ((scaleOff_le_iff x _).1 within) (by push_cast at off; omega)

variable {c : ShellContext} {enc : Count}

theorem ShellContext.measured_accepted {scale : Nat} (figure : measuredScale x (countDiff enc c.encA) = some scale) (clamped : Bool) :
    c.measured x enc clamped = { c with phase := .measuring, scale := scale, flags := c.flags.clampIf clamped } := by
  rw [ShellContext.measured, figure]

theorem ShellContext.measured_refused (figure : measuredScale x (countDiff enc c.encA) = none) (clamped : Bool) :
    c.measured x enc clamped
      = { c with phase := .measuring, flags := { c.flags.clampIf clamped with trackDeviation := true, scaleNominal := true } } := by
  rw [ShellContext.measured, figure]

end

/-! ### The two gates (R80, R83) -/

section
variable {s : State} (date : PartTime) (m : Motion) (clamped : Bool)

theorem State.gateBRise_entering {i : Fin 2} {c : ShellContext} (live : s.ctx i = some c) (entering : c.phase = .entering)
    (only : ∀ j c', j ≠ i → s.ctx j = some c' → c'.phase ≠ .entering) :
    s.gateBRise date m clamped = s.setCtx i (some (c.measured s.track m.enc clamped)) := by
  have found : s.findSlot (fun c => c.phase == .entering) = some i :=
    s.findSlot_unique _ i c live (by simp [entering]) fun j c' other live' => by simpa using only j c' other live'
  rw [State.gateBRise, found]
  exact State.modCtx_live live _

theorem State.gateBRise_ignored (none_ : ∀ i c, s.ctx i = some c → c.phase ≠ .entering) :
    s.gateBRise date m clamped = s.report .gateSequence .gates date 257 := by
  have missing : s.findSlot (fun c => c.phase == .entering) = none :=
    s.findSlot_none _ fun j c live => by simpa using none_ j c live
  rw [State.gateBRise, missing]
  rfl

theorem State.gateAFall_beforeTail {i : Fin 2} {c : ShellContext} (live : s.ctx i = some c) (before : c.beforeTail = true)
    (only : ∀ j c', j ≠ i → s.ctx j = some c' → c'.beforeTail = false) :
    s.gateAFall date m clamped = s.setCtx i (some (c.tailed m.enc clamped)) := by
  rw [State.gateAFall, s.findSlot_unique _ i c live before only]
  exact State.modCtx_live live _

theorem State.gateAFall_ignored (none_ : ∀ i c, s.ctx i = some c → c.beforeTail = false) :
    s.gateAFall date m clamped = s.report .gateSequence .gates date 0 := by
  rw [State.gateAFall, s.findSlot_none _ none_]
  rfl

end

/-- The travel is floored (0.4.3). -/
theorem travel_eq_fdiv (c : ShellContext) (enc : Count) (scale : Nat) :
    travel c enc scale = Int.fdiv ((enc - c.encA).toInt * scale) 65536 :=
  (Int.fdiv_eq_ediv_of_nonneg _ (by decide)).symm

/-! ### Placement (R86 to R89) -/

/-- The sector is that of the tube-fixed angle, taken modulo one turn (R89). -/
theorem sectorOf_eq (theta : Nat) (rho rhoA : Angle) (sectors : Nat) :
    sectorOf theta rho rhoA sectors = (((theta : Int) - ((rho.toNat : Int) - rhoA.toNat)) % 4096).toNat * sectors / 4096 := by
  have turn : (BitVec.ofNat 12 theta - (rho - rhoA)).toNat = (((theta : Int) - ((rho.toNat : Int) - rhoA.toNat)) % 4096).toNat := by
    have rho_lt := rho.isLt
    have rhoA_lt := rhoA.isLt
    simp only [BitVec.toNat_sub, BitVec.toNat_ofNat]
    omega
  rw [sectorOf, turn]

section
variable {s : State} {h : Fin 8} {t : PartTime} {b : Sample × Sample}

theorem State.place_none (none_ : ∀ i c, s.ctx i = some c → ¬ c.holdsShots = true) : s.place h t b = .noTube := by
  have empty : ¬ s.anyCtx ShellContext.holdsShots = true := fun any => by
    obtain ⟨i, c, live, holds⟩ := (s.anyCtx_iff _).1 any
    exact none_ i c live holds
  simp [State.place, empty]

theorem State.place_untracked (some_ : ∃ i c, s.ctx i = some c ∧ c.holdsShots = true) (wide : s.track.gapLimit < span b) :
    s.place h t b = .untracked (span b) := by
  simp [State.place, (s.anyCtx_iff _).2 some_, wide]

/-- The shot lies on a context (R86, R87). -/
def ShellContext.Lies (c : ShellContext) (distance : Nat) (enc : Count) : Prop :=
  c.holdsShots = true ∧ 0 ≤ travel c enc c.scale - distance ∧ ∀ l, c.length = some l → travel c enc c.scale - distance < (l : Nat)

theorem shotOn_lies {c : ShellContext} {distance : Nat} {enc : Count} (lies : c.Lies distance enc) :
    shotOn c distance enc = some (travel c enc c.scale - distance).toNat :=
  if_pos lies

theorem shotOn_off {c : ShellContext} {distance : Nat} {enc : Count} (off : ¬ c.Lies distance enc) : shotOn c distance enc = none :=
  if_neg off

/-- What the search of a slot for a shot finds: a context on which it lies, with its axial coordinate (R86, R87). -/
def State.shotIn (s : State) (h : Fin 8) (enc : Count) (i : Fin 2) : Option (Fin 2 × ShellContext × Nat) :=
  (s.ctx i).bind fun c => (shotOn c (s.headEntry h).distance enc).map fun x => (i, c, x)

theorem State.shotIn_off {enc : Count} {i : Fin 2} (off : ∀ c, s.ctx i = some c → ¬ c.Lies (s.headEntry h).distance enc) :
    s.shotIn h enc i = none := by
  unfold State.shotIn
  cases live : s.ctx i with
  | none => rfl
  | some c => simp [shotOn_off (off c live)]

theorem State.place_off (narrow : span b ≤ s.track.gapLimit)
    (off : ∀ i c, s.ctx i = some c → ¬ c.Lies (s.headEntry h).distance (motionIn b t).enc) : s.place h t b = .noTube := by
  have missed : s.slots.findSome? (s.shotIn h (motionIn b t).enc) = none :=
    List.findSome?_eq_none_iff.2 fun i _ => State.shotIn_off (off i)
  unfold State.place
  split_ifs with empty wide
  · rfl
  · omega
  · change (match s.slots.findSome? (s.shotIn h (motionIn b t).enc) with | none => _ | some (i, c, x) => _) = _
    rw [missed]

variable {i : Fin 2} {c : ShellContext}

/-- The older context on which the shot lies takes it. -/
theorem State.place_located (narrow : span b ≤ s.track.gapLimit) (live : s.ctx i = some c)
    (lies : c.Lies (s.headEntry h).distance (motionIn b t).enc)
    (first : i = s.mtr.older ∨ ∀ co, s.ctx s.mtr.older = some co → ¬ co.Lies (s.headEntry h).distance (motionIn b t).enc) :
    s.place h t b = s.locate i c (s.headEntry h).theta (motionIn b t).rho
      (travel c (motionIn b t).enc c.scale - (s.headEntry h).distance).toNat := by
  have occupied : s.anyCtx ShellContext.holdsShots = true := (s.anyCtx_iff _).2 ⟨i, c, live, lies.1⟩
  have mine : s.shotIn h (motionIn b t).enc i
      = some (i, c, (travel c (motionIn b t).enc c.scale - (s.headEntry h).distance).toNat) := by
    simp [State.shotIn, live, shotOn_lies lies]
  have found := s.slots_findSome _ i _ mine (first.imp_right State.shotIn_off)
  unfold State.place
  rw [if_neg (by simp [occupied]), if_neg (by omega)]
  change (match s.slots.findSome? (s.shotIn h (motionIn b t).enc) with | none => _ | some (i, c, x) => _) = _
  rw [found]

theorem State.locate_noProduct (unbound : c.flags.noProduct = true) (theta : Nat) (rho : Angle) (x : Nat) :
    s.locate i c theta rho x = .placed ⟨i, c.shell, 0, 0, x⟩ :=
  if_neg (by simp [ShellContext.productBound, unbound])

theorem State.locate_beyond (bound : c.flags.noProduct = false) {x : Nat} (beyond : 1023 < x / (s.productEntry c.product).segLength)
    (theta : Nat) (rho : Angle) : s.locate i c theta rho x = .outOfRange c.shell := by
  rw [State.locate, if_pos (by simp [ShellContext.productBound, bound])]
  exact if_pos beyond

theorem State.locate_within (bound : c.flags.noProduct = false) {x : Nat} (within : x / (s.productEntry c.product).segLength ≤ 1023)
    (theta : Nat) (rho : Angle) :
    s.locate i c theta rho x = .placed ⟨i, c.shell, x / (s.productEntry c.product).segLength,
      (((theta : Int) - ((rho.toNat : Int) - c.rhoA.toNat)) % 4096).toNat * (s.productEntry c.product).sectors / 4096, x⟩ := by
  rw [State.locate, if_pos (by simp [ShellContext.productBound, bound]), ← sectorOf_eq]
  exact if_neg (by omega)

end

/-- Settles O48: the two gates' rows, the rows of placement, and what becomes of a shot that is not placed. -/
theorem shellsTrackedAndShotsPlaced : Obligations.ShellsTrackedAndShotsPlaced := by
  refine ⟨fun s date m clamped => ⟨fun i c live entering only => ⟨fun forward within => ?_, fun refused => ?_⟩, fun none_ => ?_,
    fun i c live before only => ?_, fun none_ => ?_⟩, fun s h t b => ?_⟩
  · rw [State.gateBRise_entering date m clamped live entering only,
      ShellContext.measured_accepted (measuredScale_within forward within)]
    rfl
  · rw [State.gateBRise_entering date m clamped live entering only,
      ShellContext.measured_refused (measuredScale_refused refused)]
    rfl
  · exact State.gateBRise_ignored date m clamped none_
  · rw [State.gateAFall_beforeTail date m clamped live (c.beforeTail_iff.2 before)
      fun j c' other live' => c'.beforeTail_eq_false.2 (only j c' other live'), ShellContext.tailed, travel_eq_fdiv]
    rfl
  · exact State.gateAFall_ignored date m clamped fun i c live => c.beforeTail_eq_false.2 (none_ i c live)
  · intro m x holds lies
    have holds_iff (c : ShellContext) : holds c ↔ c.holdsShots = true := c.holdsShots_iff.symm
    have x_eq (c : ShellContext) : x c = travel c m.enc c.scale - (s.headEntry h).distance := by rw [travel_eq_fdiv]
    have lies_iff (c : ShellContext) : lies c ↔ c.Lies (s.headEntry h).distance m.enc := by
      simp only [lies, ShellContext.Lies, holds_iff, x_eq]
    simp only [holds_iff, lies_iff, x_eq]
    refine ⟨State.place_none, State.place_untracked, fun narrow => ⟨State.place_off narrow, fun i c live on first => ?_⟩,
      fun shot head time => ?_⟩
    · rw [State.place_located narrow live on first]
      exact ⟨fun unbound => State.locate_noProduct unbound _ _ _, fun bound beyond => State.locate_beyond bound beyond _ _,
        fun bound within => State.locate_within bound within _ _⟩
    · subst head time
      unfold State.resolveBracketed
      exact ⟨fun e => by rw [e], fun sp e => by rw [e], fun shell e => by rw [e]⟩

end Sys2Proof.Machine
end

section
/-! PROOFS. A good shot at the window, and its victim (R110 to R116); closings, the end of a shell and the checks of a context at the end
of a pass (R82, R85, R117 to R123). -/

namespace Sys2Proof.Machine

/-! ### A shot at the window (R111 to R116) -/

/-- The record that opens for a shot, all its zones empty but the shot's own (R113). -/
def Placed.opened (p : Placed) (sectors wall : Nat) : OpenSegment :=
  ⟨p.slot, p.shell, p.segment, sectors, (List.replicate sectors none).set p.sector (some ⟨1, wall, wall, p.x, wall⟩)⟩

theorem openRecord_accumulate (p : Placed) (sectors wall : Nat) :
    (openRecord p sectors).accumulate p.sector wall p.x = p.opened sectors wall := by
  have empty : (List.replicate sectors (none : Option Zone)).getD p.sector none = none := by
    rw [List.getD_eq_getElem?_getD, List.getElem?_replicate]
    split_ifs <;> rfl
  simp only [OpenSegment.accumulate, openRecord, empty]
  rfl

theorem State.openFor_eq (s : State) (p : Placed) (sectors wall : Nat) :
    s.openFor p sectors wall = { s with wmb := ⟨s.wmb.window ++ [p.opened sectors wall]⟩ } := by
  rw [State.openFor, openRecord_accumulate]
  rfl

theorem State.hit_eq (s : State) (p : Placed) (wall : Nat) :
    s.hit p wall = { s with wmb := ⟨s.wmb.window.map fun r =>
      if r.shell = p.shell ∧ r.index = p.segment then
        { r with zones := r.zones.set p.sector (some (accumulate (r.zones.getD p.sector none) wall p.x)) }
      else r⟩ } := by
  simp only [State.hit, OpenSegment.hasKey_iff, Prod.mk.injEq]
  rfl

theorem OpenSegment.any_hasKey_iff (window : List OpenSegment) (shell index : Nat) :
    window.any (·.hasKey shell index) = true ↔ ∃ r ∈ window, r.shell = shell ∧ r.index = index := by
  simp [OpenSegment.hasKey_iff]

/-- With the older shell first, the victim is the lowest record of the first shell that has one (R114). -/
theorem State.victim_eq {s : State} {v : OpenSegment} {cv : ShellContext} (keys : (s.wmb.window.map fun r => (r.shell, r.index)).Nodup)
    (open_ : v ∈ s.wmb.window) (live : s.ctx v.slot = some cv) (shell : cv.shell = v.shell)
    (lowest : ∀ r ∈ s.wmb.window, r.shell = v.shell → v.index ≤ r.index)
    (first : v.slot = s.mtr.older ∨ ∀ co, s.ctx s.mtr.older = some co → ∀ r ∈ s.wmb.window, r.shell ≠ co.shell) :
    s.victim = some v := by
  refine s.slots_findSome _ v.slot v ?_ (first.imp_right fun none_ => ?_)
  · rw [live, Option.bind_some, shell, lowestOpen_eq keys open_ rfl lowest]
  · cases older : s.ctx s.mtr.older with
    | none => rfl
    | some co => exact (lowestOpen_none _ _).2 (none_ co older)

section
variable {s : State} {p : Placed} {c : ShellContext} (live : s.ctx p.slot = some c) (wall : Nat)
include live

theorem State.acceptGood_hit (key : ∃ r ∈ s.wmb.window, r.shell = p.shell ∧ r.index = p.segment) :
    s.acceptGood p wall = (s.hit p wall).setCtx p.slot (some (c.count .good)) := by
  have live' : (s.hit p wall).ctx p.slot = some c := live
  rw [State.acceptGood, live]
  dsimp only
  rw [if_pos ((OpenSegment.any_hasKey_iff _ _ _).2 key), State.countReason_live live']

variable (new : ∀ r ∈ s.wmb.window, ¬ (r.shell = p.shell ∧ r.index = p.segment))
include new

theorem State.acceptGood_late (late : p.segment < c.boundary) : s.acceptGood p wall = s.setCtx p.slot (some (c.count .late)) := by
  have missed : ¬ s.wmb.window.any (·.hasKey p.shell p.segment) = true :=
    (OpenSegment.any_hasKey_iff _ _ _).not.2 fun ⟨r, open_, key⟩ => new r open_ key
  rw [State.acceptGood, live]
  dsimp only
  rw [if_neg missed, if_pos late, State.countReason_live live]

variable (ahead : c.boundary ≤ p.segment)
include ahead

/-- A shot ahead of its shell's boundary that hits no record opens one, or meets a full window. -/
theorem State.acceptGood_new :
    s.acceptGood p wall = if s.wmb.window.length < 12 then (s.openFor p (s.productEntry c.product).sectors wall).countReason p.slot .good
      else match s.victim with
        | none => s.countReason p.slot .windowFull
        | some v => if v.shell = p.shell ∧ p.segment < v.index then s.countReason p.slot .windowFull
          else ((s.closeSegment v true).openFor p (s.productEntry c.product).sectors wall).countReason p.slot .good := by
  have missed : ¬ s.wmb.window.any (·.hasKey p.shell p.segment) = true :=
    (OpenSegment.any_hasKey_iff _ _ _).not.2 fun ⟨r, open_, key⟩ => new r open_ key
  rw [State.acceptGood, live]
  exact (if_neg missed).trans (if_neg (by omega))

theorem State.acceptGood_opens (room : s.wmb.window.length < 12) :
    s.acceptGood p wall = (s.openFor p (s.productEntry c.product).sectors wall).setCtx p.slot (some (c.count .good)) := by
  have live' : (s.openFor p (s.productEntry c.product).sectors wall).ctx p.slot = some c := live
  rw [State.acceptGood_new live wall new ahead, if_pos room, State.countReason_live live']

variable (full : s.wmb.window.length = 12) {v : OpenSegment} (victim : s.victim = some v)
include full victim

theorem State.acceptGood_refused (own : v.shell = p.shell) (above : p.segment < v.index) :
    s.acceptGood p wall = s.setCtx p.slot (some (c.count .windowFull)) := by
  rw [State.acceptGood_new live wall new ahead, if_neg (by omega), victim]
  dsimp only
  rw [if_pos ⟨own, above⟩, State.countReason_live live]

theorem State.acceptGood_evicts (taken : v.shell ≠ p.shell ∨ v.index < p.segment) :
    s.acceptGood p wall
      = ((s.closeSegment v true).openFor p (s.productEntry c.product).sectors wall).modCtx p.slot (ShellContext.count · .good) := by
  rw [State.acceptGood_new live wall new ahead, if_neg (by omega), victim]
  dsimp only
  rw [if_neg (by omega)]
  rfl

end

/-! ### Closings (R117 to R119) -/

theorem State.closeSegment_eq_setCtx {s : State} {r : OpenSegment} {c : ShellContext} (live : s.ctx r.slot = some c) (early : Bool) :
    s.closeSegment r early =
      ({ s.offerSegment (judge (s.productEntry c.product) c.product.val r early) with
        wmb := ⟨s.wmb.window.filter fun x => decide (x.shell ≠ r.shell ∨ x.index ≠ r.index)⟩ } : State).setCtx r.slot
      (some (c.closed r.index (judge (s.productEntry c.product) c.product.val r early) (!s.rqu.refuses))) := by
  have others (x : OpenSegment) : (!x.hasKey r.shell r.index) = decide (x.shell ≠ r.shell ∨ x.index ≠ r.index) := by
    rw [Bool.eq_iff_iff]
    simp [OpenSegment.hasKey]
  have live' : (s.setWmb ⟨s.wmb.window.filter fun x => !x.hasKey r.shell r.index⟩).ctx r.slot = some c := live
  rw [s.closeSegment_eq, State.segmentJudged, live']
  simp only [others, State.offerSegment, State.setWmb_rqu]
  split_ifs <;> rfl

/-- Closings of records keep a live context live. -/
theorem State.foldl_closeSegment_live (past : List OpenSegment) (s : State) {i : Fin 2} (live : (s.ctx i).isSome = true) :
    ((past.foldl (fun a r => a.closeSegment r false) s).ctx i).isSome = true := by
  induction past generalizing s with
  | nil => exact live
  | cons r past ih => exact ih _ (s.closeSegment_live r false i live)

theorem State.naturalClose_bound {s : State} {c : ShellContext} (bound : c.flags.noProduct = false)
    (keys : (s.wmb.window.map fun r => (r.shell, r.index)).Nodup) (d : Int) :
    ∃ past : List OpenSegment,
      (∀ r, r ∈ past ↔ r ∈ s.wmb.window ∧ r.shell = c.shell
        ∧ (((r.index + 1) * (s.productEntry c.product).segLength + s.track.hold : Nat) : Int) ≤ d - s.pMax)
      ∧ past.Pairwise (fun a b => a.index < b.index)
      ∧ s.naturalClose c d = past.foldl (fun a r => a.closeSegment r false) s := by
  rw [State.naturalClose, if_pos (by simp [ShellContext.productBound, bound])]
  obtain ⟨past, mem, asc, run⟩ := State.closeRun_eq c.shell
    (fun k => decide (((k + 1) * (s.productEntry c.product).segLength + s.track.hold : Nat) ≤ d - (s.pMax : Int)))
    (fun a b le holds => by
      have grows := Nat.mul_le_mul_right (s.productEntry c.product).segLength (Nat.add_le_add_right le 1)
      simp only [decide_eq_true_eq] at holds ⊢
      omega)
    s.wmb.window.length s le_rfl keys
  exact ⟨past, by simpa using mem, asc, run⟩

/-! ### The end of a shell (R122) -/

theorem State.endShell_eq {s : State} {i : Fin 2} {c : ShellContext} (live : s.ctx i = some c)
    (keys : (s.wmb.window.map fun r => (r.shell, r.index)).Nodup) :
    ∃ (left : List OpenSegment) (last : ShellContext),
      (∀ r, r ∈ left ↔ r ∈ s.wmb.window ∧ r.shell = c.shell) ∧ left.Pairwise (fun a b => a.index < b.index)
      ∧ (left.foldl (fun a r => a.closeSegment r false) s).ctx i = some last
      ∧ s.endShell i = ((left.foldl (fun a r => a.closeSegment r false) s).queueShellReport
          (shellReport (s.productEntry last.product) last)).setCtx i none := by
  obtain ⟨left, mem, asc, run⟩ := State.closeRun_eq c.shell (fun _ => true) (fun _ _ _ _ => rfl) s.wmb.window.length s le_rfl keys
  obtain ⟨last, live'⟩ := Option.isSome_iff_exists.1 (State.foldl_closeSegment_live left s (i := i) (by simp [live]))
  have tables : (left.foldl (fun a r => a.closeSegment r false) s).tst = s.tst := by
    rw [← run, (ResolutionFrame.closeRun _ _ _ s).tst]
  refine ⟨left, last, by simpa using mem, asc, live', ?_⟩
  rw [State.endShell, live]
  dsimp only
  rw [run, live']
  simp only [State.productEntry, tables]

/-! ### The checks of a context (R82, R85) -/

section
variable {s : State} {enc : Count} {i : Fin 2} {c : ShellContext}

theorem State.checkContext_free (free : s.ctx i = none) : s.checkContext enc i = s := by
  rw [State.checkContext, free]

theorem ShellContext.gateBMissedCheck_passed {x : Tracking} (entering : c.phase = .entering)
    (passed : ((2 * x.gateDist : Nat) : Int) ≤ travel c enc x.nominal) :
    c.gateBMissedCheck x enc = { c with phase := .measuring, flags := { c.flags with gateBMissed := true } } :=
  if_pos ⟨entering, passed⟩

theorem ShellContext.gateBMissedCheck_kept {x : Tracking}
    (kept : c.phase ≠ .entering ∨ travel c enc x.nominal < ((2 * x.gateDist : Nat) : Int)) : c.gateBMissedCheck x enc = c :=
  if_neg fun both => kept.elim (fun other => other both.1) fun short => absurd both.2 (by omega)

/-- What is left of a context's checks once GATE_B_MISSED is settled: natural closing, then the end of the shell. -/
def State.closingChecks (s : State) (i : Fin 2) (c : ShellContext) (d : Int) : State :=
  let s2 := if c.holdsShots then s.naturalClose c d else s
  if s2.cleared c d then (s2.modCtx i ShellContext.closing).endShell i else s2

theorem State.checkContext_eq (live : s.ctx i = some c) :
    s.checkContext enc i = (s.setCtx i (some (c.gateBMissedCheck s.track enc))).closingChecks i (c.gateBMissedCheck s.track enc)
      (travel (c.gateBMissedCheck s.track enc) enc (c.gateBMissedCheck s.track enc).scale) := by
  rw [State.checkContext, live]
  rfl

theorem State.checkContext_kept (live : s.ctx i = some c) (kept : c.gateBMissedCheck s.track enc = c) :
    s.checkContext enc i = s.closingChecks i c (travel c enc c.scale) := by
  rw [State.checkContext_eq live, kept, ← live, Moves.setCtx_same]

variable {d : Int}

/-- Only a TAILING context whose tail has cleared the last head ends (R85). -/
theorem State.not_cleared (early : c.phase ≠ .tailing ∨ ∃ l, c.length = some l ∧ d - l < ((s.pMax + s.track.hold : Nat) : Int)) :
    s.cleared c d = false := by
  rcases early with other | ⟨l, length, short⟩
  · simp [State.cleared, other]
  · have short' : ¬ ((s.pMax + s.track.hold : Nat) : Int) ≤ d - ((c.length.getD 0 : Nat) : Int) := by
      rw [length]
      exact not_le.2 short
    simp only [State.cleared, decide_eq_false short', Bool.and_false]

theorem State.closingChecks_entering (entering : c.phase = .entering) : s.closingChecks i c d = s := by
  have noShots : ¬ c.holdsShots = true := by simp [ShellContext.holdsShots, entering]
  have stays : s.cleared c d = false := State.not_cleared (.inl (by simp [entering]))
  simp [State.closingChecks, noShots, stays]

theorem State.track_of_tst {a b : State} (e : a.tst = b.tst) : a.track = b.track := by
  simp only [State.track, e]

theorem State.pMax_of_tst {a b : State} (e : a.tst = b.tst) : a.pMax = b.pMax := by
  have entry := State.headEntry_of_tst e
  have enabled := State.enabled_of_tst e
  simp only [State.pMax, entry, enabled]

/-- A pass leaves what the clearing of a tail is judged by. -/
theorem State.naturalClose_cleared (s : State) (c : ShellContext) (d : Int) : (s.naturalClose c d).cleared c d = s.cleared c d := by
  have tables := (ResolutionFrame.naturalClose s c d).tst
  rw [State.cleared, State.cleared, State.pMax_of_tst tables, State.track_of_tst tables]

theorem State.closingChecks_stays (holds : c.holdsShots = true) (stays : s.cleared c d = false) :
    s.closingChecks i c d = s.naturalClose c d := by
  rw [State.closingChecks, if_pos holds]
  rw [State.naturalClose_cleared, stays, if_neg Bool.false_ne_true]

theorem State.closingChecks_ends (holds : c.holdsShots = true) (cleared : s.cleared c d = true) :
    s.closingChecks i c d = ((s.naturalClose c d).modCtx i ShellContext.closing).endShell i := by
  rw [State.closingChecks, if_pos holds]
  rw [State.naturalClose_cleared, cleared, if_pos rfl]

theorem State.cleared_of_passed {l : Nat} (tailing : c.phase = .tailing) (length : c.length = some l)
    (passed : ((s.pMax + s.track.hold : Nat) : Int) ≤ d - l) : s.cleared c d = true := by
  have passed' : ((s.pMax + s.track.hold : Nat) : Int) ≤ d - ((c.length.getD 0 : Nat) : Int) := by rwa [length]
  simp only [State.cleared, tailing, decide_eq_true passed', beq_self_eq_true, Bool.and_true]

theorem ShellContext.holdsShots_of_measuring (measuring : c.phase = .measuring) : c.holdsShots = true :=
  c.holdsShots_iff.2 (.inl measuring)

theorem ShellContext.holdsShots_of_tailing (tailing : c.phase = .tailing) : c.holdsShots = true :=
  c.holdsShots_iff.2 (.inr tailing)

end

end Sys2Proof.Machine
end

section
/-! PROOFS. The judgement of a closed segment (R126 to R132), the missing indices toward the tail (R123), and the window's obligation. -/

namespace Sys2Proof.Machine

/-! ### Judgement (R126 to R132) -/

section
variable (p : Product) (product : Nat) (r : OpenSegment) (early : Bool)

/-- A zone of the record holds enough shots to count (R127). -/
def OpenSegment.ValidZone (r : OpenSegment) (p : Product) (z : Zone) : Prop :=
  some z ∈ r.zones ∧ p.minShots ≤ z.n

theorem validMeans_any {p : Product} {r : OpenSegment} (test : Nat → Bool) :
    (validMeans p.minShots r.zones).any test = true ↔ ∃ z, r.ValidZone p z ∧ test (zoneMean z) = true := by
  simp only [List.any_eq_true, mem_validMeans]
  constructor
  · rintro ⟨-, ⟨z, mem, enough, rfl⟩, holds⟩
    exact ⟨z, ⟨mem, enough⟩, holds⟩
  · rintro ⟨z, ⟨mem, enough⟩, holds⟩
    exact ⟨_, ⟨z, mem, enough, rfl⟩, holds⟩

theorem judge_sparse_iff :
    (judge p product r early).verdict.sparse = true ↔ (judge p product r early).valid < r.sectors / 2 :=
  decide_eq_true_iff

theorem judge_ecc_of_sparse (sparse : (judge p product r early).verdict.sparse = true) : (judge p product r early).ecc = none :=
  if_pos ((judge_sparse_iff p product r early).1 sparse)

theorem judge_thin_iff :
    (judge p product r early).verdict.thin = true
      ↔ ∃ z, r.ValidZone p z ∧ (zoneMean z : Int) < (p.nominalWall : Int) - p.lowerTol := by
  refine (validMeans_any _).trans (exists_congr fun z => and_congr_right fun _ => ?_)
  rw [decide_eq_true_iff]
  omega

theorem judge_thick_iff :
    (judge p product r early).verdict.thick = true ↔ ∃ z, r.ValidZone p z ∧ p.nominalWall + p.upperTol < zoneMean z :=
  (validMeans_any _).trans (exists_congr fun _ => and_congr_right fun _ => decide_eq_true_iff)

theorem judge_eccentric_iff :
    (judge p product r early).verdict.eccentric = true ↔ ∃ e, (judge p product r early).ecc = some e ∧ p.eccLimit < e := by
  refine (Option.any_eq_true _ _).trans (exists_congr fun e => and_congr_right fun _ => decide_eq_true_iff)

/-- The eccentricity is that of the greatest and the least valid mean (R130). -/
theorem judge_ecc {hi lo : Zone} (known : (judge p product r early).verdict.sparse = false) (high : r.ValidZone p hi)
    (low : r.ValidZone p lo) (between : ∀ z, r.ValidZone p z → zoneMean lo ≤ zoneMean z ∧ zoneMean z ≤ zoneMean hi) :
    (judge p product r early).ecc = some (if zoneMean hi + zoneMean lo = 0 then 0
      else roundDiv (2000 * (zoneMean hi - zoneMean lo)) (zoneMean hi + zoneMean lo)) := by
  have mem {z : Zone} (valid : r.ValidZone p z) : zoneMean z ∈ validMeans p.minShots r.zones :=
    (mem_validMeans _ _ _).2 ⟨z, valid.1, valid.2, rfl⟩
  have bounds (m : Nat) (mean : m ∈ validMeans p.minShots r.zones) : zoneMean lo ≤ m ∧ m ≤ zoneMean hi := by
    obtain ⟨z, held, enough, rfl⟩ := (mem_validMeans _ _ _).1 mean
    exact between z ⟨held, enough⟩
  have most := greatest_eq _ _ (mem high) fun m mean => (bounds m mean).2
  have fewest := least_eq _ _ (mem low) fun m mean => (bounds m mean).1
  have full : ¬ (validMeans p.minShots r.zones).length < r.sectors / 2 := of_decide_eq_false known
  change segmentEcc r.sectors (validMeans p.minShots r.zones) = _
  rw [segmentEcc, if_neg full, eccentricity, most, fewest]

theorem judge_min {n : Nat} {z : Zone} (zone : r.zones[n]? = some (some z))
    (low : ∀ m y, r.zones[m]? = some (some y) → z.min ≤ y.min ∧ (m < n → z.min < y.min)) :
    (judge p product r early).min = z.min ∧ (judge p product r early).minSector = n ∧ (judge p product r early).minX = z.xMin := by
  have found := segmentMin_eq r.index r.zones 0 n none z zone low nofun
  simp [judge, found]

theorem judge_max {n : Nat} {z : Zone} (zone : r.zones[n]? = some (some z))
    (top : ∀ m y, r.zones[m]? = some (some y) → y.max ≤ z.max ∧ (m < n → y.max < z.max)) :
    (judge p product r early).max = z.max ∧ (judge p product r early).maxSector = n := by
  have found := segmentMax_eq r.zones 0 n none z zone top nofun
  simp [judge, found]

end

/-! ### The shell's report (R123) -/

theorem shellReport_missing (p : Product) {c : ShellContext} {l : Nat} (bound : c.flags.noProduct = false) (length : c.length = some l)
    (some_ : 1 ≤ l) :
    (shellReport p c).summary.missing = min 65535 (c.summary.missing + (min ((l - 1) / p.segLength) 1023 + 1 - c.boundary)) := by
  have toTail : tailMissing c.productBound (c.length.getD 0) p.segLength c.boundary
      = min ((l - 1) / p.segLength) 1023 + 1 - c.boundary := by
    rw [length]
    exact if_pos (by simp [ShellContext.productBound, bound, some_])
  change satAdd16 c.summary.missing (tailMissing c.productBound (c.length.getD 0) p.segLength c.boundary) = _
  rw [toTail]
  rfl

/-! ### The obligation -/

/-- Settles O52, part by part: the window's rows, a closing, natural closing, the end of a shell, the checks of a context, the indices
missing toward the tail, and the judgement's figures. -/
theorem shotsMappedAndSegmentsJudged : Obligations.ShotsMappedAndSegmentsJudged := by
  refine ⟨?window, fun s r early c live => State.closeSegment_eq_setCtx live early, ?natural, ?shellEnd, fun s enc => rfl,
    fun s enc i free => State.checkContext_free free, ?checks, fun p c l bound length some_ => shellReport_missing p bound length some_,
    ?judgement⟩
  case window =>
    intro s p wall c live shell bounded sectors opened reasons counting good full s'
    refine ⟨fun key => ?_, fun new => ⟨State.acceptGood_late live wall new, fun ahead room => ?_, ?_⟩⟩
    · exact (State.acceptGood_hit live wall key).trans (by rw [State.hit_eq]; rfl)
    · exact (State.acceptGood_opens live wall new ahead room).trans (by rw [State.openFor_eq]; rfl)
    · intro v cv ahead length open_ victimLive victimShell lowest first
      have victim : s.victim = some v := State.victim_eq bounded.2 open_ victimLive victimShell lowest first
      refine ⟨State.acceptGood_refused live wall new ahead length victim, fun taken => ?_⟩
      exact (State.acceptGood_evicts live wall new ahead length victim taken).trans (by rw [State.openFor_eq]; rfl)
  case natural =>
    intro s c d bounded
    exact ⟨fun unbound => if_neg (by simp [ShellContext.productBound, unbound]), fun bound => State.naturalClose_bound bound bounded.2 d⟩
  case shellEnd =>
    intro s i c live bounded
    exact State.endShell_eq live bounded.2
  case checks =>
    intro s enc i c live d
    refine ⟨fun entering passed => ?_, fun entering short => ?_, fun measuring => ?_, fun l tailing length => ?_⟩
    · rw [State.checkContext_eq live, ShellContext.gateBMissedCheck_passed entering passed]
      exact State.closingChecks_stays rfl (State.not_cleared (.inl nofun))
    · rw [State.checkContext_kept live (ShellContext.gateBMissedCheck_kept (.inr short)), State.closingChecks_entering entering]
    · rw [State.checkContext_kept live (ShellContext.gateBMissedCheck_kept (.inl (by simp [measuring])))]
      exact State.closingChecks_stays (ShellContext.holdsShots_of_measuring measuring) (State.not_cleared (.inl (by simp [measuring])))
    · rw [State.checkContext_kept live (ShellContext.gateBMissedCheck_kept (.inl (by simp [tailing])))]
      have holds := ShellContext.holdsShots_of_tailing tailing
      exact ⟨fun passed => State.closingChecks_ends holds (State.cleared_of_passed tailing length passed),
        fun short => State.closingChecks_stays holds (State.not_cleared (.inr ⟨l, length, short⟩))⟩
  case judgement =>
    intro p product r early j mean valid
    refine ⟨⟨rfl, rfl, rfl, rfl, rfl⟩, length_validMeans _ _, judge_sparse_iff p product r early, judge_ecc_of_sparse p product r early,
      judge_thin_iff p product r early, judge_thick_iff p product r early,
      fun hi lo known high low between => judge_ecc p product r early known high low between, judge_eccentric_iff p product r early,
      fun n z zone low => judge_min p product r early zone low, fun n z zone top => judge_max p product r early zone top, ?_⟩
    exact List.map_congr_left fun z _ => by cases z <;> rfl

end Sys2Proof.Machine
end

section
/-! PROOFS. The place of an arriving item (R92), the rows a measuring shot meets when it arrives, and the resolution of a shot item (R93,
R98, R99). -/

namespace Sys2Proof.Machine

/-! ### The order of the queue (R92) -/

/-- The held items are cut before the first that sorts after the arriving one, which takes its place there. -/
theorem insertItem_split (new : Item) (items : List Item) :
    ∃ before after, items = before ++ after ∧ insertItem new items = before ++ new :: after
      ∧ (∀ i ∈ before, sortsAfter i new = false) ∧ (∀ i, after.head? = some i → sortsAfter i new = true) := by
  induction items with
  | nil => exact ⟨[], [], rfl, rfl, nofun, nofun⟩
  | cons held rest ih =>
    by_cases sorts : sortsAfter held new = true
    · refine ⟨[], held :: rest, rfl, if_pos sorts, nofun, fun i front => ?_⟩
      cases front
      exact sorts
    · obtain ⟨before, after, split, place, pass, stop⟩ := ih
      refine ⟨held :: before, after, congrArg (held :: ·) split, (if_neg sorts).trans (congrArg (held :: ·) place), ?_, stop⟩
      exact List.forall_mem_cons.2 ⟨Bool.eq_false_of_not_eq_true sorts, pass⟩

theorem tieAfter_iff (held new : Item) :
    tieAfter held new = true ↔ ∃ a, held = .shot a ∧ ∀ b, new = .shot b → b.head < a.head := by
  cases held with
  | gate g => exact ⟨nofun, nofun⟩
  | shot a =>
    cases new with
    | gate g => exact ⟨fun _ => ⟨a, rfl, nofun⟩, fun _ => rfl⟩
    | shot b => simp [tieAfter]

theorem sortsAfter_iff (held new : Item) :
    sortsAfter held new = true ↔ 0 < (held.time - new.time).toInt ∨ (held.time = new.time ∧ tieAfter held new = true) := by
  simp [sortsAfter, earlier]

/-! ### The tests on a shot's time and key (R69, R93, R98) -/

section
variable {history : List Sample} {t : PartTime}

theorem beforeOldest_iff : beforeOldest history t = true ↔ ∃ o, history.head? = some o ∧ earlier t o.tau = true :=
  Option.any_eq_true _ _

theorem notAfterNewest_iff : notAfterNewest history t = true ↔ ∃ n, history.getLast? = some n ∧ earlier n.tau t = false := by
  simp [notAfterNewest, Option.any_eq_true]

/-- Between the oldest and the newest held sample a time has a bracket, whatever the samples' order. -/
theorem bracket_exists (inside : ¬ beforeOldest history t = true) (reached : notAfterNewest history t = true) :
    ∃ b, bracket history t = some b := by
  obtain ⟨n, last, notLater⟩ := notAfterNewest_iff.1 reached
  refine Option.ne_none_iff_exists'.1 fun missing => ?_
  rcases bracket_eq_none.1 missing with allLater | allEarlier
  · obtain ⟨o, first⟩ : ∃ o, history.head? = some o := Option.ne_none_iff_exists'.1 fun empty => by
      rw [List.head?_eq_none_iff.1 empty] at last
      cases last
    exact inside (beforeOldest_iff.2 ⟨o, first, allLater o (List.mem_of_head? first)⟩)
  · rw [allEarlier n (List.mem_of_getLast? last)] at notLater
    cases notLater

end

theorem Rsq.holdsDuplicate_iff_exists (q : Rsq) (x : Shot) :
    q.holdsDuplicate x = true ↔ ∃ y, Item.shot y ∈ q.items ∧ y.head = x.head ∧ y.time = x.time := by
  rw [Rsq.holdsDuplicate_iff, List.mem_filterMap]
  constructor
  · rintro ⟨i, held, key⟩
    cases i with
    | gate g => cases key
    | shot y =>
      obtain ⟨head, time⟩ := Prod.mk.inj (Option.some.inj key)
      exact ⟨y, held, head, time⟩
  · rintro ⟨y, held, head, time⟩
    exact ⟨.shot y, held, congrArg some (Prod.ext head time)⟩

/-! ### The rows of R93 and of R99 -/

section
variable {s : State} {x : Shot}

theorem State.discardStale_eq {o : Sample} (oldest : s.mtr.history.head? = some o) :
    s.discardStale x = s.report .staleShot (.head x.head) x.time (min 65535 (o.tau - x.time).toNat) := by
  rw [State.discardStale, oldest]
  rfl

theorem State.resolveShot_stale (before : beforeOldest s.mtr.history x.time = true) : s.resolveShot x = s.discardStale x :=
  if_pos before

theorem State.resolveShot_bracketed {b : Sample × Sample} (inside : ¬ beforeOldest s.mtr.history x.time = true)
    (found : bracket s.mtr.history x.time = some b) : s.resolveShot x = s.resolveBracketed x b := by
  rw [State.resolveShot, if_neg inside, found]

theorem State.shotArrival_duplicate (held : s.rsq.holdsDuplicate x = true) :
    s.shotArrival x = s.report .duplicateShot (.head x.head) x.time x.seq.toNat :=
  if_pos held

variable (fresh : ¬ s.rsq.holdsDuplicate x = true)
include fresh

theorem State.shotArrival_stale (before : beforeOldest s.mtr.history x.time = true) : s.shotArrival x = s.discardStale x := by
  rw [State.shotArrival, if_neg fresh, if_pos before]

variable (inside : ¬ beforeOldest s.mtr.history x.time = true)
include inside

theorem State.shotArrival_resolved (reached : notAfterNewest s.mtr.history x.time = true) : s.shotArrival x = s.resolveShot x := by
  rw [State.shotArrival, if_neg fresh, if_neg inside, if_pos reached]

variable (after : ¬ notAfterNewest s.mtr.history x.time = true)
include after

theorem State.shotArrival_overflow (full : 60 ≤ s.rsq.shots) :
    s.shotArrival x = s.report .resolveOverflow (.head x.head) x.time x.seq.toNat := by
  rw [State.shotArrival, if_neg fresh, if_neg inside, if_neg after, if_pos full]

theorem State.shotArrival_held (room : s.rsq.shots < 60) : s.shotArrival x = { s with rsq := ⟨insertItem (.shot x) s.rsq.items⟩ } := by
  rw [State.shotArrival, if_neg fresh, if_neg inside, if_neg after, if_neg (by omega)]
  rfl

end

/-! ### The obligation -/

/-- Settles O45: the place of an item by induction on the queue, its order case by case, and the rows of R93 and R99, whose tests are the
model's in the obligation's words. -/
theorem itemInsertedInOrder : Obligations.ItemInsertedInOrder := by
  refine ⟨insertItem_split, fun held new => (sortsAfter_iff held new).trans (by rw [tieAfter_iff]), fun s x => ?_⟩
  intro duplicate stale staleShot notLater
  have duplicate_iff : s.rsq.holdsDuplicate x = true ↔ duplicate := s.rsq.holdsDuplicate_iff_exists x
  have inside (notStale : ∀ o, ¬ stale o) : ¬ beforeOldest s.mtr.history x.time = true := fun before =>
    let ⟨o, isStale⟩ := beforeOldest_iff.1 before
    notStale o isStale
  have notLater_iff : notAfterNewest s.mtr.history x.time = true ↔ notLater := notAfterNewest_iff
  rw [← duplicate_iff, ← notLater_iff]
  refine ⟨State.shotArrival_duplicate, fun o isStale => ?_, fun fresh notStale reached => ?_,
    fun b notStale found => State.resolveShot_bracketed (inside notStale) found,
    fun fresh notStale after => ⟨State.shotArrival_overflow fresh (inside notStale) after,
      State.shotArrival_held fresh (inside notStale) after⟩⟩
  · have before := beforeOldest_iff.2 ⟨o, isStale⟩
    have discarded : s.discardStale x = staleShot o := State.discardStale_eq isStale.1
    exact ⟨fun fresh => (State.shotArrival_stale fresh before).trans discarded, (State.resolveShot_stale before).trans discarded⟩
  · obtain ⟨b, found⟩ := bracket_exists (inside notStale) reached
    have resolved := State.shotArrival_resolved fresh (inside notStale) reached
    exact ⟨b, found, resolved.trans (State.resolveShot_bracketed (inside notStale) found)⟩

end Sys2Proof.Machine
end

section
/-! PROOFS. A wall accumulated into a zone (R109); what a closing leaves in its shell's context (R117, R118, R133, R138); the figures of a
shell report (R134, R137). -/

namespace Sys2Proof.Machine

/-! ### Zones (R109) -/

section
variable {z : Zone} (wall x : Nat)

theorem accumulate_counted (room : z.n < 65535) :
    accumulate (some z) wall x = ⟨z.n + 1, z.sum + wall, if wall < z.min then wall else z.min,
      if wall < z.min then x else z.xMin, if z.max < wall then wall else z.max⟩ := by
  simp only [accumulate, if_pos room]

theorem accumulate_saturated (full : ¬ z.n < 65535) :
    accumulate (some z) wall x = ⟨z.n, z.sum, if wall < z.min then wall else z.min,
      if wall < z.min then x else z.xMin, if z.max < wall then wall else z.max⟩ := by
  simp only [accumulate, if_neg full]

end

/-- Settles O51, by the three states of a zone: empty, with room in its count, and saturated. -/
theorem zoneAccumulates : Obligations.ZoneAccumulates := fun wall x =>
  ⟨rfl, fun _ _ counted => accumulate_counted wall x (by omega), fun _ saturated => accumulate_saturated wall x (by omega)⟩

/-! ### Counts below saturation -/

theorem satSucc_of_lt {limit n : Nat} (below : n < limit) : satSucc limit n = n + 1 :=
  Nat.min_eq_right below

theorem satAdd16_of_le {n by_ : Nat} (below : n + by_ ≤ 65535) : satAdd16 n by_ = n + by_ :=
  Nat.min_eq_right below

/-! ### The fold into the summary (R133) -/

theorem Summary.fold_maxEcc_unknown (x : Summary) {r : SegmentReport} (unknown : r.ecc = none) : (x.fold r).maxEcc = x.maxEcc := by
  simp only [Summary.fold, unknown]

theorem Summary.fold_maxEcc_known (x : Summary) {r : SegmentReport} {e : Nat} (known : r.ecc = some e) :
    (x.fold r).maxEcc = foldMax x.maxEcc e r.index := by
  simp only [Summary.fold, known]

/-! ### A closing in the context (R118) -/

section
variable (c : ShellContext) (index : Nat) (r : SegmentReport) (accepted : Bool)

/-- The summary after a closing: the missing indices, the fold, and the one of reported and lost that the offer decides (R118). -/
theorem ShellContext.closed_summary :
    (c.closed index r accepted).summary = { c.summary.fold r with
      missing := satAdd16 c.summary.missing (index - c.boundary)
      reported := if accepted = true then satSucc 65535 c.summary.reported else c.summary.reported
      lost := if accepted = true then c.summary.lost else satSucc 65535 c.summary.lost } := by
  cases accepted <;> rfl

/-- Below saturation, a closing's three counts grow by what it accounts for (R138). -/
theorem ShellContext.closed_counts (gap : c.summary.missing + (index - c.boundary) ≤ 65535) (reported : c.summary.reported < 65535)
    (lost : c.summary.lost < 65535) :
    let y := (c.closed index r accepted).summary
    y.missing = c.summary.missing + (index - c.boundary)
    ∧ y.reported = c.summary.reported + (if accepted = true then 1 else 0)
    ∧ y.lost = c.summary.lost + (if accepted = true then 0 else 1) := by
  simp only [ShellContext.closed_summary, satAdd16_of_le gap, satSucc_of_lt reported, satSucc_of_lt lost, true_and]
  cases accepted <;> exact ⟨rfl, rfl⟩

theorem ShellContext.closed_maxEcc : (c.closed index r accepted).summary.maxEcc = (c.summary.fold r).maxEcc := by
  rw [ShellContext.closed_summary]

theorem ShellContext.closed_minWall : (c.closed index r accepted).summary.minWall = foldMin c.summary.minWall r := by
  rw [ShellContext.closed_summary, Summary.fold]

theorem ShellContext.closed_maxWall : (c.closed index r accepted).summary.maxWall = foldMax c.summary.maxWall r.max r.index := by
  rw [ShellContext.closed_summary, Summary.fold]

theorem ShellContext.closed_reasons : (c.closed index r accepted).summary.reasons = c.summary.reasons := by
  rw [ShellContext.closed_summary, Summary.fold]

end

/-! ### The indices beyond 1023 (R134) -/

theorem beyondRange_eq (c : ShellContext) (l segLength : Nat) :
    beyondRange c.productBound l segLength
      = if c.flags.noProduct = true ∨ l = 0 then 0 else min 65535 ((l - 1) / segLength - 1023) := by
  by_cases none_ : c.flags.noProduct = true ∨ l = 0
  · rw [if_pos none_]
    exact if_neg (by simpa [ShellContext.productBound, ← Nat.pos_iff_ne_zero, imp_iff_not_or] using none_)
  · rw [if_neg none_]
    exact if_pos (by simpa [ShellContext.productBound, Nat.one_le_iff_ne_zero] using none_)

/-! ### The obligation -/

/-- Settles O53, part by part: the counts of a closing, whose sum is then arithmetic; the fold, figure by figure; the shell report. -/
theorem closingAccountsForIndices : Obligations.ClosingAccountsForIndices := by
  refine ⟨?counts, ?fold, ?report⟩
  case counts =>
    intro c index r accepted ahead gap reported lost c'
    obtain ⟨missing', reported', lost'⟩ := c.closed_counts index r accepted gap reported lost
    have boundary' : c'.boundary = index + 1 := rfl
    refine ⟨boundary', missing', reported', lost', ?_, rfl, c.closed_reasons index r accepted⟩
    rw [missing', reported', lost', boundary']
    cases accepted <;> simp only [if_true, Bool.false_eq_true, if_false] <;> omega
  case fold =>
    intro c index r accepted x y raised
    have summary := c.closed_summary index r accepted
    refine ⟨congrArg Summary.earlyClosed summary, congrArg Summary.thin summary, congrArg Summary.thick summary,
      congrArg Summary.eccentric summary, fun empty => ?_, fun m held => ?_, fun empty => ?_, fun m held => ?_, fun unknown => ?_,
      fun e known => ⟨fun empty => ?_, fun m held => ?_⟩⟩
    · rw [c.closed_minWall, empty, foldMin]
    · rw [c.closed_minWall, held, foldMin]
    · rw [c.closed_maxWall, empty, foldMax]
    · rw [c.closed_maxWall, held, foldMax]
    · rw [c.closed_maxEcc, x.fold_maxEcc_unknown unknown]
    · rw [c.closed_maxEcc, x.fold_maxEcc_known known, empty, foldMax]
    · rw [c.closed_maxEcc, x.fold_maxEcc_known known, held, foldMax]
  case report =>
    intro p c l length r
    have length' : c.length.getD 0 = l := by rw [length, Option.getD_some]
    refine ⟨rfl, rfl, rfl, rfl, length', rfl, ?_⟩
    rw [← beyondRange_eq, ← length']
    rfl

end Sys2Proof.Machine
end

section
/-! PROOFS. The verdict of a shell report, by the first row that applies (R136). -/

namespace Sys2Proof.Machine

/-- A NO_PRODUCT shell, and no other, has no limit bound (R78, R136). -/
theorem ShellContext.productBound_iff (c : ShellContext) : c.productBound = true ↔ c.flags.noProduct = false := by
  rw [ShellContext.productBound, Bool.not_eq_true']

/-- A shell of length 0 has no tail to count (R123). -/
theorem tailMissing_of_no_length (bound : Bool) (segLength boundary : Nat) : tailMissing bound 0 segLength boundary = 0 :=
  if_neg (by simp)

theorem shellReport_missing_of_no_length (p : Product) {c : ShellContext} (length : c.length = some 0)
    (bounded : c.summary.missing ≤ 65535) : (shellReport p c).summary.missing = c.summary.missing := by
  change satAdd16 c.summary.missing (tailMissing c.productBound (c.length.getD 0) p.segLength c.boundary) = _
  rw [length, Option.getD_some, tailMissing_of_no_length, satAdd16_of_le bounded, Nat.add_zero]

/-- The rows of R136 in order, read from the report's own summary. -/
theorem shellReport_verdict (p : Product) (c : ShellContext) :
    let x := (shellReport p c).summary
    (shellReport p c).verdict =
      if 0 < x.thin ∨ 0 < x.thick then .reject
      else if c.flags.noProduct = false ∧ 1 ≤ p.eccSegLimit ∧ p.eccSegLimit ≤ 1023 ∧ p.eccSegLimit ≤ x.eccentric then .reject
      else if 0 < x.lost ∨ 0 < x.missing ∨ c.flags.noProduct = true ∨ c.flags.noGrade = true ∨ c.flags.degradedHeads = true then
        .unverified
      else .accept :=
  if_congr Iff.rfl rfl (if_congr (and_congr_left' c.productBound_iff) rfl rfl)

/-- Settles O55, row by row of `shellReport_verdict`. -/
theorem shellVerdictRows : Obligations.ShellVerdictRows := by
  intro p c r thinOrThick eccentric unverified
  have verdict := shellReport_verdict p c
  refine ⟨rfl, fun length bounded => shellReport_missing_of_no_length p length bounded, fun wall => ?wall,
    fun wall ecc => ?eccentric, fun wall ecc doubt => ?unverified, fun wall ecc doubt => ?accept⟩
  case wall => exact verdict.trans (if_pos wall)
  case eccentric => exact verdict.trans ((if_neg wall).trans (if_pos ecc))
  case unverified => exact verdict.trans ((if_neg wall).trans ((if_neg ecc).trans (if_pos doubt)))
  case accept => exact verdict.trans ((if_neg wall).trans ((if_neg ecc).trans (if_neg doubt)))

end Sys2Proof.Machine
end

section
/-! PROOFS. The line chain step by step: effects that claim nothing, one anomaly or two in one step, frames that arrive at the upstream
port and at the downstream port, and the two forward buffers (R150 to R153, R157, R159, R173). -/

namespace Sys2Proof.Machine

/-! ### Steps whose choice is settled at once -/

section
variable {s u : State} (rst : s.rstHigh = true) (ready : u.ready = s.ready) {t : PartTime} {f : State → State}
include rst ready

/-- Effects that claim nothing are the whole step. -/
theorem acting_unclaimed (effect : f (s.begun t) = u.setReady none) : acting t s f = u := by
  rw [acting_of_rstHigh rst, effect, ← ready]
  rfl

/-- Effects that end in one anomaly leave its capture (R173). -/
theorem acting_captured {kind : CaptureKind} {source : CaptureSource} {time : PartTime} {detail : Nat}
    (effect : f (s.begun t) = (u.setReady none).report kind source time detail) : acting t s f = u.captures kind source time detail := by
  rw [acting_of_rstHigh rst, effect, ← ready, State.settled_report]

end

/-- The capture record filled with an anomaly, and CAPTURE_HELD pending (R173). -/
def State.captureFilled (s : State) (a : Anomaly) : State :=
  { s with
    cmu := { s.cmu with capture := some a }
    rqu := { s.rqu with notices := { s.rqu.notices with captureHeld := true } } }

/-- The capture record with MORE (R173). -/
def State.captureMore (s : State) : State :=
  s.setCmu { s.cmu with more := true }

section
variable {s : State} {kind : CaptureKind} {source : CaptureSource} {time : PartTime} {detail : Nat}

/-- An EMPTY record is filled, and CAPTURE_HELD claims the transmitter (R173). -/
theorem State.report_empty (empty : s.cmu.capture = none) :
    s.report kind source time detail = (s.captureFilled ⟨kind, source, time, detail⟩).claim .notices := by
  rw [State.report, empty]
  rfl

/-- A HELD record receives MORE alone (R173). -/
theorem State.report_held (held : s.cmu.capture ≠ none) : s.report kind source time detail = s.captureMore := by
  obtain ⟨a, held⟩ := Option.ne_none_iff_exists'.1 held
  rw [State.report, held]
  rfl

theorem State.captures_empty (empty : s.cmu.capture = none) :
    s.captures kind source time detail = (s.captureFilled ⟨kind, source, time, detail⟩).notified := by
  rw [State.captures, empty]
  rfl

theorem State.captures_held (held : s.cmu.capture ≠ none) : s.captures kind source time detail = s.captureMore := by
  obtain ⟨a, held⟩ := Option.ne_none_iff_exists'.1 held
  rw [State.captures, held]
  rfl

/-- Once an anomaly has been reported the record is HELD. -/
theorem State.report_capture : (s.report kind source time detail).cmu.capture ≠ none := by
  by_cases empty : s.cmu.capture = none
  · rw [State.report_empty empty]
    exact nofun
  · rw [State.report_held empty]
    exact empty

end

/-- A notice frame that an idle transmitter takes does not touch the capture record. -/
theorem State.notified_captureMore (s : State) : s.captureMore.notified = s.notified.captureMore := by
  unfold State.notified
  rw [show s.captureMore.lcp = s.lcp from rfl]
  split_ifs <;> rfl

/-- A step with two anomalies leaves the capture of the first, with MORE (R173). -/
theorem acting_captured_more {s : State} (rst : s.rstHigh = true) {t : PartTime} {f : State → State} {kind kind' : CaptureKind}
    {source source' : CaptureSource} {time time' : PartTime} {detail detail' : Nat}
    (effect : f (s.begun t) = ((s.begun t).report kind source time detail).report kind' source' time' detail') :
    acting t s f = ((s.setTime t).captures kind source time detail).captureMore := by
  rw [acting_of_rstHigh rst, effect, State.report_held State.report_capture]
  by_cases empty : s.cmu.capture = none
  · rw [State.report_empty (s := s.begun t) empty, State.captures_empty (s := s.setTime t) empty, ← State.notified_captureMore]
    exact State.settled_notices ((s.setTime t).captureFilled ⟨kind, source, time, detail⟩).captureMore
      (by simp [State.captureMore, State.captureFilled, Notices.any])
  · rw [State.report_held (s := s.begun t) empty, State.captures_held (s := s.setTime t) empty]
    rfl

/-! ### The downstream forward buffer (R153, R159) -/

/-- Of LCP, a frame entered downstream moves that buffer and its transmitter alone. -/
theorem Lcp.withDown_eq (x : Lcp) (f : LineFrame) :
    x.withDown f = { x with down := (x.withDown f).down, downTx := (x.withDown f).downTx } := by
  unfold Lcp.withDown
  split <;> rfl

theorem Lcp.withDown_slot (x : Lcp) (f : LineFrame) : (x.withDown f).slot = x.slot := by
  rw [Lcp.withDown_eq]

theorem Lcp.withDown_up (x : Lcp) (f : LineFrame) : (x.withDown f).up = x.up := by
  rw [Lcp.withDown_eq]

section
variable {x : Lcp} {f : LineFrame}

theorem Lcp.withDown_busy {g : LineFrame} (busy : x.downTx = some g) : x.withDown f = { x with down := x.down ++ [f] } := by
  cases x
  cases busy
  rfl

theorem Lcp.withDown_idle (idle : x.downTx = none) {g : LineFrame} {rest : List LineFrame} (front : x.down ++ [f] = g :: rest) :
    x.withDown f = { x with downTx := some g, down := rest } := by
  unfold Lcp.withDown
  rw [idle]
  cases held : x.down with
  | nil =>
    obtain ⟨rfl, rfl⟩ : f = g ∧ [] = rest := by simpa [held] using front
    simp [← held]
  | cons d more =>
    obtain ⟨rfl, rfl⟩ : d = g ∧ more ++ [f] = rest := by simpa [held] using front
    rfl

end

section
variable {s : State} (t : PartTime) {f : LineFrame}

theorem State.enterDown_entered (room : s.lcp.down.length < 8) : s.enterDown t f = s.setLcp (s.lcp.withDown f) := by
  let entered := s.setLcp { s.lcp with down := s.lcp.down ++ [f] }
  rw [State.enterDown_room s t f room]
  cases tx : s.lcp.downTx with
  | some g => exact (State.takeDown_busy entered tx).trans (congrArg s.setLcp (Lcp.withDown_busy tx).symm)
  | none =>
    obtain ⟨g, rest, front⟩ := List.exists_cons_of_ne_nil (List.append_ne_nil_of_right_ne_nil s.lcp.down (List.cons_ne_nil f []))
    exact (State.takeDown_idle entered tx front).trans (congrArg s.setLcp (Lcp.withDown_idle tx front).symm)

theorem State.enterDown_dropped (full : 8 ≤ s.lcp.down.length) :
    s.enterDown t f = s.report .forwardOverflow .upstream t (frameDetail f) :=
  if_pos full

end

/-! ### Frames at the upstream port (R150, R151) -/

/-- What `State.hearsUpstream` says, part by part. -/
theorem State.hearsUpstream_iff (s : State) : s.hearsUpstream = true ↔ s.rstHigh = true ∧ s.lcp.upDiscarding = false := by
  simp [State.hearsUpstream]

/-- A frame that is no COMMAND is consumed with UNKNOWN_KIND (R151). -/
theorem State.consume_unknown (s : State) (t : PartTime) {f : LineFrame} (cut : Cut) (k : f.kind ≠ kindCommand) :
    s.consume t f cut = s.report .unknownKind .upstream t (frameDetail f) :=
  if_neg k

/-- Settles O26: the frame is entered, or dropped with one anomaly. -/
theorem upstreamFramesForwarded : Obligations.UpstreamFramesForwarded := by
  intro t s f hears other addressed
  obtain ⟨rst, listens⟩ := s.hearsUpstream_iff.1 hears
  have arrives : (s.begun t).upstreamArrival t f Cut.nothing = (s.begun t).enterDown t f :=
    State.upstreamArrival_forward (s.begun t) t f Cut.nothing listens other addressed
  refine ⟨fun room => ?_, fun full => ?_⟩ <;> refine congrArg Host.Outcome.next ?_
  · exact acting_unclaimed (u := (s.setTime t).setLcp (s.lcp.withDown f)) rst rfl
      (arrives.trans (State.enterDown_entered (s := s.begun t) t room))
  · exact acting_captured (u := s.setTime t) rst rfl (arrives.trans (State.enterDown_dropped (s := s.begun t) t full))

/-! ### The upstream forward buffer (R152, R153, R157) -/

theorem State.sendForward_shareForwarding (s : State) (f : LineFrame) (rest : List LineFrame) :
    s.sendForward f rest = s.setLcp { s.lcp with up := rest, upTx := some f, share := s.shareForwarding } := by
  unfold State.sendForward State.shareForwarding
  simp only [List.isEmpty_iff]

section
variable {s : State} {f : LineFrame}

theorem State.withUp_busy {g : LineFrame} (busy : s.lcp.upTx = some g) : s.withUp f = { s.lcp with up := s.lcp.up ++ [f] } := by
  unfold State.withUp
  rw [busy]

theorem State.withUp_idle (idle : s.lcp.upTx = none) {g : LineFrame} {rest : List LineFrame} (front : s.lcp.up ++ [f] = g :: rest) :
    s.withUp f = { s.lcp with up := rest, upTx := some g, share := s.shareForwarding } := by
  unfold State.withUp
  rw [idle]
  cases held : s.lcp.up with
  | nil =>
    obtain ⟨rfl, rfl⟩ : f = g ∧ [] = rest := by simpa [held] using front
    simp [← held]
  | cons d more =>
    obtain ⟨rfl, rfl⟩ : d = g ∧ more ++ [f] = rest := by simpa [held] using front
    rfl

end

/-- A frame entered upstream that is the step's only claimant: an idle transmitter takes the head of the buffer. -/
theorem State.settled_entered (u : State) (f : LineFrame) :
    (((u.setReady none).setLcp { u.lcp with up := u.lcp.up ++ [f] }).claim .forwarded).settled.setReady u.ready
      = u.setLcp (u.withUp f) := by
  let entered := ((u.setReady none).setLcp { u.lcp with up := u.lcp.up ++ [f] }).claim .forwarded
  cases tx : u.lcp.upTx with
  | some g =>
    rw [State.settled_same entered (.inr (tx ▸ nofun)), State.withUp_busy tx]
    rfl
  | none =>
    obtain ⟨g, rest, front⟩ := List.exists_cons_of_ne_nil (List.append_ne_nil_of_right_ne_nil u.lcp.up (List.cons_ne_nil f []))
    have chosen : entered.chooseFirst .forwarded = entered.sendForward g rest := by
      rw [State.chooseFirst, show entered.lcp.up = g :: rest from front]
    rw [State.settled_idle entered (c := .forwarded) rfl tx, chosen, State.sendForward_shareForwarding, State.withUp_idle tx front]
    rfl

/-- Settles O27: a frame that the receiver hears is entered upstream whatever it is, or dropped with one anomaly. -/
theorem downstreamFramesForwarded : Obligations.DownstreamFramesForwarded := by
  intro t s f rst listens
  have arrives : (s.begun t).downstreamArrival t f = (s.begun t).enterUp t f := if_neg (by simp [State.begun, listens])
  refine ⟨fun room => ?_, fun full => ?_⟩ <;> refine congrArg Host.Outcome.next ?_
  · rw [acting_of_rstHigh rst, arrives, State.enterUp_room (s.begun t) t f room]
    exact State.settled_entered (s.setTime t) f
  · exact acting_captured (u := s.setTime t) rst rfl (arrives.trans (if_pos full))

end Sys2Proof.Machine
end

section
/-! PROOFS. The commands of the line computer at the port: SET_ADDRESS (R155), CLEAR_CAPTURE (R173, R176), and each command row as the
frame it arrives in (R150, R206). -/

namespace Sys2Proof.Machine

/-! ### SET_ADDRESS (R155) -/

section
variable {s : State} {a : Byte}

theorem byteOf_byte (a : Byte) : byteOf a.toNat = a := by
  rw [byteOf, BitVec.ofNat_toNat, BitVec.setWidth_eq]

theorem State.actSetAddress_taken (own : a.toNat ≤ 253) : s.actSetAddress [a] = ⟨s.setLcp { s.lcp with address := a }, .done, []⟩ := by
  rw [State.actSetAddress, field_byte, if_neg (by omega), byteOf_byte]

theorem State.actSetAddress_refused (reserved : 253 < a.toNat) : s.actSetAddress [a] = ⟨s, .badValue, []⟩ := by
  rw [State.actSetAddress, field_byte, if_pos reserved]

end

/-- SET_ADDRESS, taken: the answer of its owner, which raises no notice. -/
theorem exec_setAddress_answered {s u : State} {h : CommandHeader} (takes : s.takes h = true) {t : PartTime} {a : Byte} {status : Status}
    (ready : u.ready = s.ready) (acts : (s.begun t).actSetAddress [a] = ⟨u.begun t, status, []⟩) :
    exec (.setAddress t h [a]) s = .next (u.withAnswer t h status.code []) :=
  congrArg Host.Outcome.next (State.commandArrives_answered takes ready (code := 7) (args := [a]) (cut := Cut.nothing) acts)

/-- Settles O18: the answer is formed by the state that its owner leaves, so that it comes from the new address. -/
theorem setAddressMoves : Obligations.SetAddressMoves := by
  intro t h s a takes
  refine ⟨fun own => ?_, fun reserved => ?_⟩
  · exact exec_setAddress_answered takes (status := .done) rfl (State.actSetAddress_taken (s := s.begun t) own)
  · exact exec_setAddress_answered takes (status := .badValue) rfl (State.actSetAddress_refused reserved)

/-! ### CLEAR_CAPTURE (R173, R176) -/

/-- Settles O21: the owner answers the record it found; an anomaly then fills it, and the next ones set MORE. -/
theorem clearCaptureEmpties : Obligations.ClearCaptureEmpties := by
  refine ⟨fun t h s takes => ?_, fun s kind source time detail => ⟨State.report_empty, State.report_held⟩⟩
  exact congrArg Host.Outcome.next (State.commandArrives_answered
    (u := s.setCmu { s.cmu with capture := none, more := false }) (status := .done) (data := s.cmu.captureBlock)
    (code := 10) (args := []) (cut := Cut.nothing) takes rfl rfl)

/-! ### The rows of the eleven commands (R150, R206) -/

/-- Settles O24: each row is defined as the arrival of the frame that carries its code, and RESTART's with what it cuts. -/
theorem commandsArriveAsFrames : Obligations.CommandsArriveAsFrames :=
  fun _ _ _ _ => ⟨rfl, rfl, rfl, rfl, rfl, rfl, rfl, rfl, rfl, rfl, rfl⟩

end Sys2Proof.Machine
end

section
/-! PROOFS. Broadcast frames and commands that are dropped (R150, R151, R153, R163, R166, R180): a copy goes downstream first, and a command
that is not dropped is then run without an answer. -/

namespace Sys2Proof.Machine

/-! ### The copy of a broadcast (R150, R153) -/

/-- What the entry of a frame in the downstream buffer leaves of the rest: the answer slot, the upstream buffer, the command state. -/
structure EntryFrame (s s' : State) : Prop where
  partTime : s'.partTime = s.partTime
  slot     : s'.lcp.slot = s.lcp.slot
  up       : s'.lcp.up = s.lcp.up
  command  : s'.cmu.state = s.cmu.state

theorem EntryFrame.report (s : State) (kind : CaptureKind) (source : CaptureSource) (time : PartTime) (detail : Nat) :
    EntryFrame s (s.report kind source time detail) := by
  rcases s.report_eq kind source time detail with e | e <;> rw [e] <;> constructor <;> rfl

theorem EntryFrame.enterDown (s : State) (t : PartTime) (f : LineFrame) : EntryFrame s (s.enterDown t f) := by
  by_cases room : s.lcp.down.length < 8
  · rw [State.enterDown_entered t room]
    exact ⟨rfl, Lcp.withDown_slot s.lcp f, Lcp.withDown_up s.lcp f, rfl⟩
  · rw [State.enterDown_dropped t (Nat.not_lt.1 room)]
    exact .report s _ _ _ _

theorem EntryFrame.commandBusy {s s' : State} (e : EntryFrame s s') : s'.commandBusy = s.commandBusy := by
  rw [State.commandBusy, State.commandBusy, e.slot, e.command]

/-- A broadcast command that is not dropped is run, and not answered (R166). -/
theorem State.consume_broadcast {s : State} (t : PartTime) {f : LineFrame} (cut : Cut) (k : f.kind = kindCommand)
    (free : s.commandBusy = false) (all : f.dest = broadcast) : s.consume t f cut = (s.runCommand t f cut).state := by
  rw [State.consume, if_pos k, State.takeCommand, if_neg (by simp [free]), if_pos all]

theorem State.commandBusy_eq_false {s : State} (empty : s.lcp.slot = none) (idle : s.cmu.state = .idle) : s.commandBusy = false := by
  simp [State.commandBusy, empty, idle]

/-! ### RESTART (R178, R180) -/

/-- Settles O22: an addressed RESTART is answered like any command; a broadcast one restarts the state with its copy entered. -/
theorem restartAnsweredOrAtOnce : Obligations.RestartAnsweredOrAtOnce := by
  intro t h s cut
  refine ⟨fun takes => ?_, fun hears all empty idle room => ?_⟩ <;> refine congrArg Host.Outcome.next ?_
  · refine State.commandArrives_answered (u := s.setCmu { s.cmu with state := .restartPending .waiting }) (status := .done) (data := [])
      (code := 11) (args := []) takes rfl ?_
    obtain ⟨-, -, -, addressed, -, -⟩ := (s.takes_iff h).1 takes
    have addressed' : ¬ (h.dest == broadcast) = true := by simpa using addressed
    exact if_neg addressed'
  · obtain ⟨rst, listens⟩ := s.hearsUpstream_iff.1 hears
    obtain ⟨_, source, tag⟩ := h
    obtain rfl : _ = (255 : Byte) := all
    let f : LineFrame := ⟨255, source, 1, tag, [11]⟩
    let entered := s.setLcp (s.lcp.withDown f)
    refine acting_unclaimed (u := entered.afterRestart t cut) rst rfl ?_
    have copied : (s.begun t).enterDown t f = entered.begun t := State.enterDown_entered (s := s.begun t) t room
    have free : (entered.begun t).commandBusy = false := by
      rw [← copied, (EntryFrame.enterDown (s.begun t) t f).commandBusy]
      exact State.commandBusy_eq_false (s := s.begun t) empty idle
    calc (s.begun t).upstreamArrival t f cut
      _ = ((s.begun t).enterDown t f).consume t f cut := State.upstreamArrival_broadcast (s.begun t) t f cut listens rfl
      _ = (entered.begun t).consume t f cut := by rw [copied]
      _ = ((entered.begun t).runCommand t f cut).state := State.consume_broadcast t cut rfl free rfl
      _ = (entered.begun t).restart t cut := rfl
      _ = (entered.afterRestart t cut).setReady none := entered.restart_eq t cut

/-! ### Frames of unknown kinds (R151, R174, R203) -/

/-- Settles O28: each is reported once, a broadcast one behind the overflow that its copy may have met. -/
theorem unknownKindsCaptured : Obligations.UnknownKindsCaptured := by
  refine ⟨fun t s f hears own addressed k => ?_, fun t s f hears all k => ?_, fun t s node kind payload hears shot motion => ?_⟩
  · obtain ⟨rst, listens⟩ := s.hearsUpstream_iff.1 hears
    refine congrArg Host.Outcome.next (acting_captured (u := s.setTime t) rst rfl ?_)
    exact (State.upstreamArrival_consume (s.begun t) t f Cut.nothing listens own addressed).trans (State.consume_unknown _ t Cut.nothing k)
  · obtain ⟨rst, listens⟩ := s.hearsUpstream_iff.1 hears
    have arrives : (s.begun t).upstreamArrival t f Cut.nothing
        = ((s.begun t).enterDown t f).report .unknownKind .upstream t (frameDetail f) :=
      (State.upstreamArrival_broadcast (s.begun t) t f Cut.nothing listens all).trans (State.consume_unknown _ t Cut.nothing k)
    have detail : frameDetail f = 256 * 255 + f.kind.toNat := by simp [frameDetail, all]
    rw [← detail]
    refine ⟨fun room => ?_, fun full => ?_⟩ <;> refine congrArg Host.Outcome.next ?_
    · rw [State.enterDown_entered (s := s.begun t) t room] at arrives
      exact acting_captured (u := (s.setTime t).setLcp (s.lcp.withDown f)) rst rfl arrives
    · rw [State.enterDown_dropped (s := s.begun t) t full] at arrives
      exact acting_captured_more rst arrives
  · obtain ⟨rst, listens⟩ : s.rstHigh = true ∧ s.hlp.discarding = false := by simpa [State.hearsHeadLink] using hears
    refine congrArg Host.Outcome.next (acting_captured (u := s.setTime t) rst rfl ?_)
    exact (if_neg (by simp [State.begun, listens])).trans ((if_neg shot).trans (if_neg motion))

end Sys2Proof.Machine
end

section
/-! PROOFS. What a broadcast command leaves of the line chain (R150, R153, R157, R163, R166), whatever its owner does, and the commands
that are dropped. -/

namespace Sys2Proof.Machine

/-! ### What the owners of commands leave alone -/

/-- What an owner leaves, all but a restart's: of LCP the address alone may change, and the notice set alone may claim the transmitter, when
it is raised. -/
structure OwnerFrame (s s' : State) : Prop where
  partTime : s'.partTime = s.partTime
  command  : s'.cmu.state = s.cmu.state
  lcp      : s'.lcp = { s.lcp with address := s'.lcp.address }
  claim    : (s'.ready = s.ready ∧ s'.rqu = s.rqu) ∨ (s'.ready = s.ready.or (some .notices) ∧ s'.rqu.notices.any = true)

namespace OwnerFrame

theorem of_quiet {s s' : State} (partTime : s'.partTime = s.partTime) (command : s'.cmu.state = s.cmu.state)
    (lcp : s'.lcp = { s.lcp with address := s'.lcp.address }) (ready : s'.ready = s.ready) (rqu : s'.rqu = s.rqu) : OwnerFrame s s' :=
  ⟨partTime, command, lcp, .inl ⟨ready, rqu⟩⟩

theorem refl (s : State) : OwnerFrame s s :=
  of_quiet rfl rfl rfl rfl rfl

theorem trans {a b c : State} (x : OwnerFrame a b) (y : OwnerFrame b c) : OwnerFrame a c where
  partTime := y.partTime.trans x.partTime
  command := y.command.trans x.command
  lcp := by rw [y.lcp, x.lcp]
  claim := by
    rcases y.claim with ⟨ready, rqu⟩ | ⟨ready, any⟩
    · rw [ready, rqu]
      exact x.claim
    · refine .inr ⟨?_, any⟩
      rcases x.claim with ⟨before, -⟩ | ⟨before, -⟩ <;> rw [ready, before]
      rw [Option.or_assoc, Option.or_self]

theorem of_notices {s s' : State} (notices : NoticeFrame s s') (partTime : s'.partTime = s.partTime) (cmu : s'.cmu = s.cmu) :
    OwnerFrame s s' :=
  ⟨partTime, by rw [cmu], by rw [notices.lcp], notices.claim⟩

theorem recomputeLevel (s : State) : OwnerFrame s s.recomputeLevel := by
  refine of_notices (.recomputeLevel s) ?_ ?_ <;> rcases s.recomputeLevel_eq with ⟨e, -⟩ | ⟨e, -⟩ <;> rw [e] <;> rfl

theorem setHcu (s : State) (x : Hcu) : OwnerFrame s (s.setHcu x) :=
  of_quiet rfl rfl rfl rfl rfl

theorem setTst (s : State) (x : Tst) : OwnerFrame s (s.setTst x) :=
  of_quiet rfl rfl rfl rfl rfl

theorem setFsc (s : State) (x : Fsc) : OwnerFrame s (s.setFsc x) :=
  of_quiet rfl rfl rfl rfl rfl

theorem writeTable (s : State) (t : PartTime) (table index : Nat) (c : Bytes) : OwnerFrame s (s.writeTable t table index c).1 := by
  have effects (a : State) : OwnerFrame a (a.writeEffects t table index) := by
    unfold State.writeEffects
    split
    · exact (a.headJudged_hcu (headAt index) ▸ setHcu a _ : OwnerFrame a (a.headJudged (headAt index))).trans (recomputeLevel _)
    · unfold State.setupWritten
      split
      · exact refl a
      · exact setHcu a _
    · exact refl a
  unfold State.writeTable
  split
  · exact refl s
  · exact (setTst s _).trans (effects _)

theorem halt (s : State) : OwnerFrame s s.halt := by
  have raised : OwnerFrame s (s.setFsc { s.fsc with state := .halted }).raiseScheduleHalted :=
    ⟨rfl, rfl, rfl, .inr ⟨rfl, by simp [State.raiseScheduleHalted, Notices.any]⟩⟩
  exact raised.trans (recomputeLevel _)

theorem beginRun (s : State) (t : PartTime) : OwnerFrame s (s.beginRun t) := by
  have begun : OwnerFrame s (s.runBegun t) := of_quiet rfl rfl rfl rfl rfl
  exact begun.trans (recomputeLevel _)

theorem actStart (s : State) (t : PartTime) : OwnerFrame s (s.actStart t).state := by
  have validated (idle : s.fsc.state = .stopped ∨ s.fsc.state = .halted) : OwnerFrame s (s.actStart t).state := by
    cases verdict : s.offending with
    | none => exact (State.actStart_valid t idle verdict) ▸ beginRun s t
    | some n => exact (State.actStart_invalid t idle verdict) ▸ halt s
  cases state : s.fsc.state with
  | stopped => exact validated (.inl state)
  | halted => exact validated (.inr state)
  | running => exact (State.actStart_running t state) ▸ refl s
  | stopping => exact (State.actStart_resumed t state) ▸ setFsc s _

theorem stopSchedule (s : State) : OwnerFrame s s.stopSchedule := by
  by_cases running : s.fsc.state = .running
  · rw [State.stopSchedule_running running]
    exact setFsc s _
  · rw [State.stopSchedule_other running]
    exact refl s

theorem actAnnounce (s : State) (args : Bytes) : OwnerFrame s (s.actAnnounce args).state := by
  unfold State.actAnnounce
  split_ifs
  · exact refl s
  · exact refl s
  · exact of_quiet rfl rfl rfl rfl rfl

theorem actRequestCal (s : State) (args : Bytes) : OwnerFrame s (s.actRequestCal args).state := by
  unfold State.actRequestCal
  split_ifs
  · exact refl s
  · exact refl s
  · exact refl s
  · exact setHcu s _

theorem actSetAddress (s : State) (args : Bytes) : OwnerFrame s (s.actSetAddress args).state := by
  unfold State.actSetAddress
  split_ifs
  · exact refl s
  · exact of_quiet rfl rfl rfl rfl rfl

theorem actSetScratch (s : State) (args : Bytes) : OwnerFrame s (s.actSetScratch args).state := by
  unfold State.actSetScratch
  dsimp only
  split
  · exact of_quiet rfl rfl rfl rfl rfl
  · exact of_quiet rfl rfl rfl rfl rfl
  · exact refl s

/-- Every owner but that of a broadcast RESTART, which restarts the part (R180). -/
theorem owner (s : State) (t : PartTime) (code : Nat) (args : Bytes) (cut : Cut) :
    (s.owner t code args true cut).state = s.restart t cut ∨ OwnerFrame s (s.owner t code args true cut).state := by
  unfold State.owner
  split
  · exact .inr (refl s)
  · exact .inr (writeTable s t _ _ _)
  · exact .inr (actStart s t)
  · exact .inr (stopSchedule s)
  · exact .inr (actAnnounce s args)
  · exact .inr (actRequestCal s args)
  · exact .inr (actSetAddress s args)
  · exact .inr (refl s)
  · exact .inr (actSetScratch s args)
  · exact .inr (of_quiet rfl rfl rfl rfl rfl)
  · exact .inl rfl
  · exact .inr (refl s)

theorem runCommand (s : State) (t : PartTime) {f : LineFrame} (cut : Cut) (all : f.dest = broadcast) :
    (s.runCommand t f cut).state = s.restart t cut ∨ OwnerFrame s (s.runCommand t f cut).state := by
  unfold State.runCommand
  rw [show (f.dest == broadcast) = true by simp [all]]
  split
  · exact .inr (refl s)
  · split_ifs
    · exact .inr (refl s)
    · exact owner s t _ _ cut
    · exact .inr (refl s)

end OwnerFrame

/-! ### What a broadcast command leaves (R150, R166) -/

/-- The line chain and the command state as a broadcast command leaves them, the answer slot having been empty. -/
structure BroadcastFrame (s s' : State) : Prop where
  partTime : s'.partTime = s.partTime
  slot     : s'.lcp.slot = none
  down     : s'.lcp.down = s.lcp.down
  downTx   : s'.lcp.downTx = s.lcp.downTx
  up       : s'.lcp.up = s.lcp.up
  idle     : s'.cmu.state = .idle
  claim    : s.ready = none → s'.ready = none ∨ (s'.ready = some .notices ∧ s'.rqu.notices.any = true)

theorem BroadcastFrame.runCommand {s : State} (empty : s.lcp.slot = none) (idle : s.cmu.state = .idle) (t : PartTime) {f : LineFrame}
    (cut : Cut) (all : f.dest = broadcast) : BroadcastFrame s (s.runCommand t f cut).state := by
  rcases OwnerFrame.runCommand s t cut all with e | frame
  · rw [e]
    exact ⟨rfl, rfl, rfl, rfl, rfl, rfl, fun quiet => .inl quiet⟩
  · have lcp := frame.lcp
    refine ⟨frame.partTime, by rw [lcp, empty], by rw [lcp], by rw [lcp], by rw [lcp], frame.command.trans idle, fun quiet => ?_⟩
    rcases frame.claim with ⟨ready, -⟩ | ⟨ready, any⟩
    · exact .inl (ready.trans quiet)
    · exact .inr ⟨by rw [ready, quiet, Option.none_or], any⟩

/-- Without an answer in the slot the transmitter's choice leaves the slot and the command state (R157). -/
theorem State.settled_unanswered {s : State} (empty : s.lcp.slot = none) :
    s.settled.lcp.slot = none ∧ s.settled.cmu.state = s.cmu.state := by
  have arbitrated : s.arbitrate.lcp.slot = none ∧ s.arbitrate.cmu.state = s.cmu.state := by
    rcases s.arbitrate_cases with ⟨f, held, -⟩ | ⟨-, -, e⟩ | ⟨-, -, f, rest, -, -, e⟩ | ⟨-, -, r, rest, -, -, e⟩ | ⟨-, -, -, -, e⟩
    · simp [empty] at held
    all_goals rw [e]; exact ⟨empty, rfl⟩
  unfold State.settled
  split
  · exact ⟨empty, rfl⟩
  · rename_i c _
    split_ifs
    · exact ⟨empty, rfl⟩
    · rcases s.chooseFirst_cases c with e | ⟨-, -, e⟩ | ⟨-, f, rest, -, e⟩ | ⟨-, r, rest, -, e⟩ <;> rw [e]
      · exact arbitrated
      all_goals exact ⟨empty, rfl⟩

/-- While the notice set is the step's only claimant the upstream buffer keeps its frames (R157). -/
theorem State.settled_up {s : State} (claim : s.ready = none ∨ (s.ready = some .notices ∧ s.rqu.notices.any = true)) :
    s.settled.lcp.up = s.lcp.up := by
  rcases claim with quiet | ⟨ready, any⟩
  · rw [s.settled_same (.inl quiet)]
  · by_cases idle : s.lcp.upTx = none
    · rw [s.settled_idle ready idle, State.chooseFirst, if_pos any]
      rfl
    · rw [s.settled_same (.inr idle)]

/-! ### Commands met at the port -/

theorem overrunDetail_eq (f : LineFrame) :
    overrunDetail f = 256 * (match f.payload with | [] => 0 | code :: _ => code.toNat) + f.tag.toNat := by
  unfold overrunDetail
  cases f.payload <;> rfl

theorem frameDetail_broadcast {f : LineFrame} (all : f.dest = broadcast) (k : f.kind = kindCommand) : frameDetail f = 256 * 255 + 1 := by
  simp [frameDetail, all, k, broadcast, kindCommand]

/-- A command that comes while the answer slot is full or a restart is pending is dropped, its copy entered or not (R163). -/
theorem EntryFrame.consume_dropped {s v : State} (entry : EntryFrame s v) {f : LineFrame} (k : f.kind = kindCommand)
    (busy : s.lcp.slot ≠ none ∨ s.cmu.state ≠ .idle) (t : PartTime) (cut : Cut) :
    v.consume t f cut = v.report .commandOverrun .upstream t (overrunDetail f) := by
  refine v.consume_overrun t f cut k (entry.commandBusy.trans ?_)
  simpa [State.commandBusy, Option.isSome_iff_ne_none] using busy

/-- A broadcast command that is not dropped is run on the state with its copy entered (R150, R166). -/
theorem State.upstreamArrival_broadcast_run {s : State} (listens : s.lcp.upDiscarding = false) {f : LineFrame} (all : f.dest = broadcast)
    (k : f.kind = kindCommand) (empty : s.lcp.slot = none) (idle : s.cmu.state = .idle) (t : PartTime) (cut : Cut) :
    s.upstreamArrival t f cut = ((s.enterDown t f).runCommand t f cut).state := by
  rw [State.upstreamArrival_broadcast s t f cut listens all]
  exact State.consume_broadcast t cut k ((EntryFrame.enterDown s t f).commandBusy.trans (State.commandBusy_eq_false empty idle)) all

/-- Settles O23: a command that is met by a full slot or a pending restart is dropped behind its copy; a broadcast one that is not is
run, and the transmitter then chooses. -/
theorem commandOverrunDrops : Obligations.CommandOverrunDrops := by
  intro t s f hears k detail begun copied
  obtain ⟨rst, listens⟩ := s.hearsUpstream_iff.1 hears
  have overrun : overrunDetail f = detail := overrunDetail_eq f
  have entry := EntryFrame.enterDown (s.begun t) t f
  have dropped (all : f.dest = broadcast) (busy : s.lcp.slot ≠ none ∨ s.cmu.state ≠ .idle) :
      (s.begun t).upstreamArrival t f Cut.nothing = ((s.begun t).enterDown t f).report .commandOverrun .upstream t detail := by
    rw [← overrun, ← entry.consume_dropped k busy t Cut.nothing]
    exact State.upstreamArrival_broadcast (s.begun t) t f Cut.nothing listens all
  have copied_eq (all : f.dest = broadcast) : (s.begun t).enterDown t f = copied := by
    by_cases room : s.lcp.down.length < 8
    · exact (State.enterDown_entered (s := s.begun t) t room).trans (if_pos room).symm
    · rw [State.enterDown_dropped (s := s.begun t) t (Nat.not_lt.1 room), frameDetail_broadcast all k]
      exact (if_neg room).symm
  refine ⟨fun own addressed busy => ?own, fun all busy room => ?copied, fun all busy full => ?overflow, fun all empty idle => ?run⟩
  case own =>
    refine congrArg Host.Outcome.next (acting_captured (u := s.setTime t) rst rfl ?_)
    rw [State.upstreamArrival_consume (s.begun t) t f Cut.nothing listens own addressed, ← overrun]
    exact EntryFrame.consume_dropped (s := s.begun t) (v := s.begun t) ⟨rfl, rfl, rfl, rfl⟩ k busy t Cut.nothing
  case copied =>
    refine congrArg Host.Outcome.next (acting_captured (u := (s.setTime t).setLcp (s.lcp.withDown f)) rst rfl ?_)
    rw [dropped all busy, State.enterDown_entered (s := s.begun t) t room]
    rfl
  case overflow =>
    refine congrArg Host.Outcome.next (acting_captured_more rst (kind' := .commandOverrun) (source' := .upstream) (time' := t)
      (detail' := detail) ?_)
    rw [dropped all busy, State.enterDown_dropped (s := s.begun t) t full, frameDetail_broadcast all k]
  case run =>
    have runs := State.upstreamArrival_broadcast_run (s := s.begun t) listens all k empty idle t Cut.nothing
    rw [copied_eq all] at entry runs
    let ran := (copied.runCommand t f Cut.nothing).state
    have frame : BroadcastFrame copied ran := .runCommand (entry.slot.trans empty) (entry.command.trans idle) t Cut.nothing all
    have choice : ChoiceFrame ran ran.settled := .settled ran
    obtain ⟨slot, command⟩ := State.settled_unanswered frame.slot
    refine ⟨ran.settled.setReady s.ready, congrArg Host.Outcome.next ((acting_of_rstHigh rst t _).trans (by rw [runs])), rfl, slot,
      choice.down.trans frame.down, choice.downTx.trans frame.downTx, command.trans frame.idle, fun room => ?_,
      choice.partTime.trans (frame.partTime.trans entry.partTime)⟩
    have quiet : copied.ready = none := congrArg State.ready (if_pos room)
    exact (State.settled_up (frame.claim quiet)).trans (frame.up.trans entry.up)

end Sys2Proof.Machine
end

section
/-! PROOFS. Reception (R149, R202): what a receiver makes of bytes that do not end a good frame, and what it does while it discards; and the
lines that fall idle (R161, R202). -/

namespace Sys2Proof.Machine

/-! ### The bytes of a damaged frame (R200 to R202) -/

theorem byteOf_length {p : Bytes} (fits : p.length ≤ 248) : (byteOf p.length).toNat = p.length := by
  rw [byteOf_toNat]
  omega

section
variable {f : LineFrame}

/-- A whole frame whose check code is not that of its body (R149, R201). -/
theorem receiveLine_wrongCheck (fits : f.payload.length ≤ 248) {check : BitVec 16} (wrong : check ≠ crc16 (lineBody f)) :
    receiveLine (lineBody f ++ be16 check.toNat) = .discard (7 + f.payload.length) false := by
  have differs : check.toNat ≠ (crc16 (lineBody f)).toNat := fun same => wrong (BitVec.eq_of_toNat_eq same)
  have len := byteOf_length fits
  change receiveLine (f.dest :: f.source :: f.kind :: f.tag :: byteOf f.payload.length :: (f.payload ++ be16 check.toNat)) = _
  rw [receiveLine, len, if_neg (by omega), if_neg (by simp), List.take_left, List.drop_left,
    List.take_of_length_le (Nat.le_of_eq (be16_length _)), bytesToNat_be16 _ check.isLt]
  exact if_neg differs

/-- A frame of which fewer bytes have come than it has (R202). -/
theorem receiveLine_short (fits : f.payload.length ≤ 248) {n : Nat} (some_ : 1 ≤ n) (short : n < 7 + f.payload.length) :
    receiveLine ((lineBytes f).take n) = .discard n false := by
  have len := byteOf_length fits
  have count : ((lineBytes f).take n).length = n := by
    rw [List.length_take, lineBytes_length]
    omega
  match n, some_ with
  | 1, _ => rfl
  | 2, _ => rfl
  | 3, _ => rfl
  | 4, _ => rfl
  | m + 5, _ =>
    change receiveLine (f.dest :: f.source :: f.kind :: f.tag :: byteOf f.payload.length
      :: (f.payload ++ be16 (crc16 (lineBody f)).toNat).take m) = _
    have cut : ((f.payload ++ be16 (crc16 (lineBody f)).toNat).take m).length < f.payload.length + 2 := by
      simp only [List.length_take]
      omega
    rw [receiveLine, len, if_neg (by omega), if_pos cut]
    exact congrArg (LineReception.discard · false) count

theorem receiveLine_long (dest source kind tag : Byte) {len : Byte} (long : 248 < len.toNat) (rest : Bytes) :
    receiveLine ([dest, source, kind, tag, len] ++ rest) = .discard 5 true :=
  if_pos long

end

section
variable {f : HeadFrame}

/-- As `receiveLine_wrongCheck`, for the head link. -/
theorem receiveHead_wrongCheck (fits : f.payload.length ≤ 248) {check : BitVec 16} (wrong : check ≠ crc16 (headBody f)) :
    receiveHead (headBody f ++ be16 check.toNat) = .discard (5 + f.payload.length) false := by
  have differs : check.toNat ≠ (crc16 (headBody f)).toNat := fun same => wrong (BitVec.eq_of_toNat_eq same)
  have len := byteOf_length fits
  change receiveHead (f.node :: f.kind :: byteOf f.payload.length :: (f.payload ++ be16 check.toNat)) = _
  rw [receiveHead, len, if_neg (by omega), if_neg (by simp), List.take_left, List.drop_left,
    List.take_of_length_le (Nat.le_of_eq (be16_length _)), bytesToNat_be16 _ check.isLt]
  exact if_neg differs

/-- As `receiveLine_short`, for the head link. -/
theorem receiveHead_short (fits : f.payload.length ≤ 248) {n : Nat} (some_ : 1 ≤ n) (short : n < 5 + f.payload.length) :
    receiveHead ((headBytes f).take n) = .discard n false := by
  have len := byteOf_length fits
  have count : ((headBytes f).take n).length = n := by
    rw [List.length_take, headBytes_length]
    omega
  match n, some_ with
  | 1, _ => rfl
  | 2, _ => rfl
  | m + 3, _ =>
    change receiveHead (f.node :: f.kind :: byteOf f.payload.length :: (f.payload ++ be16 (crc16 (headBody f)).toNat).take m) = _
    have cut : ((f.payload ++ be16 (crc16 (headBody f)).toNat).take m).length < f.payload.length + 2 := by
      simp only [List.length_take]
      omega
    rw [receiveHead, len, if_neg (by omega), if_pos cut]
    exact congrArg (HeadReception.discard · false) count

theorem receiveHead_long (node kind : Byte) {len : Byte} (long : 248 < len.toNat) (rest : Bytes) :
    receiveHead ([node, kind, len] ++ rest) = .discard 3 true :=
  if_pos long

end

/-! ### Receivers that discard (R161, R202) -/

/-- The receiver of a port discards every byte until its line falls idle. -/
def State.discards (s : State) : Receiver → Bool
  | .headLink => s.hlp.discarding
  | .upstream => s.lcp.upDiscarding
  | .downstream => s.lcp.downDiscarding

/-- The receiver of a port goes on to discard, or begins a frame at the next byte. -/
def State.footing (s : State) (discarding : Bool) : Receiver → State
  | .headLink => s.setHlp { s.hlp with discarding := discarding }
  | .upstream => s.setLcp { s.lcp with upDiscarding := discarding }
  | .downstream => s.setLcp { s.lcp with downDiscarding := discarding }

theorem State.fallsIdle_eq (s : State) (port : Receiver) : s.fallsIdle port = s.footing false port := by
  cases port <;> rfl

theorem State.footing_same {s : State} {port : Receiver} {discarding : Bool} (same : s.discards port = discarding) :
    s.footing discarding port = s := by
  subst same
  cases port <;> rfl

/-- The footing of a receiver and an anomaly do not touch each other. -/
theorem State.report_footing (s : State) (discarding : Bool) (port : Receiver) (kind : CaptureKind) (source : CaptureSource)
    (time : PartTime) (detail : Nat) :
    (s.report kind source time detail).footing discarding port = (s.footing discarding port).report kind source time detail := by
  have cmu : (s.footing discarding port).cmu = s.cmu := by cases port <;> rfl
  by_cases empty : s.cmu.capture = none
  · rw [State.report_empty empty, State.report_empty (cmu ▸ empty)]
    cases port <;> rfl
  · rw [State.report_held empty, State.report_held (cmu ▸ empty)]
    cases port <;> rfl

theorem State.captures_footing (s : State) (discarding : Bool) (port : Receiver) (kind : CaptureKind) (source : CaptureSource)
    (time : PartTime) (detail : Nat) :
    (s.footing discarding port).captures kind source time detail = (s.captures kind source time detail).footing discarding port := by
  have notified (a : State) : (a.footing discarding port).notified = a.notified.footing discarding port := by
    unfold State.notified
    rw [show (a.footing discarding port).lcp.upTx = a.lcp.upTx by cases port <;> rfl]
    split_ifs <;> cases port <;> rfl
  have cmu : (s.footing discarding port).cmu = s.cmu := by cases port <;> rfl
  by_cases empty : s.cmu.capture = none
  · rw [State.captures_empty empty, State.captures_empty (cmu ▸ empty), ← notified]
    cases port <;> rfl
  · rw [State.captures_held empty, State.captures_held (cmu ▸ empty)]
    cases port <;> rfl

/-- An anomaly leaves a receiver that hears as it is. -/
theorem State.captures_hearing {s : State} {port : Receiver} (hears : s.discards port = false) (kind : CaptureKind) (source : CaptureSource)
    (time : PartTime) (detail : Nat) :
    (s.captures kind source time detail).footing false port = s.captures kind source time detail := by
  rw [← State.captures_footing, State.footing_same hears]

/-- A step that discards a frame: it is captured, and the receiver has its footing. -/
theorem acting_discarded {s : State} (rst : s.rstHigh = true) {t : PartTime} {f : State → State} {kind : CaptureKind}
    {source : CaptureSource} {n : Nat} {resync : Bool} {port : Receiver}
    (effect : f (s.begun t) = ((s.begun t).report kind source t n).footing resync port) :
    acting t s f = ((s.setTime t).captures kind source t n).footing resync port := by
  rw [← State.captures_footing]
  refine acting_captured rst (by cases port <;> rfl) ?_
  rw [effect, State.report_footing]
  cases port <;> rfl

section
variable {s : State} (rst : s.rstHigh = true) (t : PartTime) {received : Bytes} {n : Nat} {resync : Bool}
include rst

theorem exec_upstreamCheck (hears : s.lcp.upDiscarding = false) (damaged : receiveLine received = .discard n resync) (few : n ≤ 65535) :
    exec (.lineFrameCheck t .upstream received) s
      = .next (((s.setTime t).captures .lineFrameCheck .upstream t n).footing resync .upstream) := by
  refine congrArg Host.Outcome.next (acting_discarded rst ?_)
  dsimp only
  rw [State.upstreamBytes, if_neg (by simp [State.begun, hears]), damaged]
  dsimp only
  rw [Nat.min_eq_right few]
  rfl

theorem exec_downstreamCheck (hears : s.lcp.downDiscarding = false) (damaged : receiveLine received = .discard n resync)
    (few : n ≤ 65535) :
    exec (.lineFrameCheck t .downstream received) s
      = .next (((s.setTime t).captures .lineFrameCheck .downstream t n).footing resync .downstream) := by
  refine congrArg Host.Outcome.next (acting_discarded rst ?_)
  dsimp only
  rw [State.downstreamBytes, if_neg (by simp [State.begun, hears]), damaged]
  dsimp only
  rw [Nat.min_eq_right few]
  rfl

theorem exec_headCheck (hears : s.hlp.discarding = false) (damaged : receiveHead received = .discard n resync) (few : n ≤ 65535) :
    exec (.headFrameCheck t received) s
      = .next (((s.setTime t).captures .headFrameCheck .headLink t n).footing resync .headLink) := by
  refine congrArg Host.Outcome.next (acting_discarded rst ?_)
  rw [State.headLinkBytes, if_neg (by simp [State.begun, hears]), damaged]
  dsimp only
  rw [Nat.min_eq_right few]
  rfl

/-- A frame of the line chain that is discarded, and after which its receiver hears the next byte, at either port. -/
theorem exec_lineCheck (damaged : receiveLine received = .discard n false) (few : n ≤ 65535) :
    (s.lcp.upDiscarding = false → exec (.lineFrameCheck t .upstream received) s
      = .next ((s.setTime t).captures .lineFrameCheck .upstream t n))
    ∧ (s.lcp.downDiscarding = false → exec (.lineFrameCheck t .downstream received) s
      = .next ((s.setTime t).captures .lineFrameCheck .downstream t n)) := by
  refine ⟨fun hears => ?_, fun hears => ?_⟩
  · rw [exec_upstreamCheck rst t hears damaged few, State.captures_hearing (s := s.setTime t) (port := .upstream) hears]
  · rw [exec_downstreamCheck rst t hears damaged few, State.captures_hearing (s := s.setTime t) (port := .downstream) hears]

/-- As `exec_lineCheck`, for the head link. -/
theorem exec_headLinkCheck (hears : s.hlp.discarding = false) (damaged : receiveHead received = .discard n false) (few : n ≤ 65535) :
    exec (.headFrameCheck t received) s = .next ((s.setTime t).captures .headFrameCheck .headLink t n) := by
  rw [exec_headCheck rst t hears damaged few, State.captures_hearing (s := s.setTime t) (port := .headLink) hears]

/-- What reaches a receiver that discards has no effect. -/
theorem acting_unheard {f : State → State} (effect : f (s.begun t) = s.begun t) : acting t s f = s.setTime t :=
  acting_unclaimed (u := s.setTime t) rst rfl effect

end

/-- Settles O29: by the receiver's verdict on each form of damage, and by its discarding. -/
theorem damagedFramesDiscarded : Obligations.DamagedFramesDiscarded := by
  intro t s rst
  refine ⟨fun f check fits wrong => ?wrongLine, fun f check fits wrong hears => ?wrongHead, fun f n fits some_ short => ?shortLine,
    fun f n fits some_ short hears => ?shortHead,
    fun dest source kind tag len rest long => ⟨fun hears => ?_, fun hears => ?_, fun hears => ?_⟩,
    fun bytes f node kind => ⟨fun deaf => ⟨?_, ?_⟩, fun deaf => ⟨?_, ?_⟩, fun deaf => ⟨?_, ?_, ?_, ?_⟩⟩⟩
  case wrongLine => exact exec_lineCheck rst t (receiveLine_wrongCheck fits wrong) (by omega)
  case wrongHead => exact exec_headLinkCheck rst t hears (receiveHead_wrongCheck fits wrong) (by omega)
  case shortLine => exact exec_lineCheck rst t (receiveLine_short fits some_ short) (by omega)
  case shortHead => exact exec_headLinkCheck rst t hears (receiveHead_short fits some_ short) (by omega)
  · exact exec_upstreamCheck rst t hears (receiveLine_long dest source kind tag long rest) (by decide)
  · exact exec_downstreamCheck rst t hears (receiveLine_long dest source kind tag long rest) (by decide)
  · exact exec_headCheck rst t hears (receiveHead_long dest source long rest) (by decide)
  all_goals exact congrArg Host.Outcome.next (acting_unheard rst t (if_pos deaf))

/-! ### Lines and transmitters that go on (R159, R161, R202, R205) -/

theorem exec_lineFallsIdle {s : State} (rst : s.rstHigh = true) (t : PartTime) (port : Receiver) :
    exec (.lineFallsIdle t port) s = .next ((s.setTime t).footing false port) := by
  refine congrArg Host.Outcome.next (acting_unclaimed (u := (s.setTime t).footing false port) rst (by cases port <;> rfl) ?_)
  rw [State.fallsIdle_eq]
  cases port <;> rfl

/-- Settles O33: each transmitter takes the front of its own queue, and an idle line gives its receiver its footing. -/
theorem linksGoOn : Obligations.LinksGoOn := by
  intro t s rst
  have downstream (front : Option LineFrame) (rest : List LineFrame) (head : s.lcp.down.head? = front) (tail : s.lcp.down.tail = rest) :
      exec (.downstreamTransmitterFree t) s = .next ((s.setTime t).setLcp { s.lcp with down := rest, downTx := front }) := by
    subst head tail
    exact congrArg Host.Outcome.next (acting_unclaimed (u := (s.setTime t).setLcp _) rst rfl (State.downstreamFree_eq (s.begun t)))
  refine ⟨fun f rest held => ?_, fun empty => ?_, fun f rest held => ?_, exec_lineFallsIdle rst t .headLink,
    exec_lineFallsIdle rst t .upstream, exec_lineFallsIdle rst t .downstream⟩
  · exact downstream (some f) rest (by rw [held]; rfl) (by rw [held]; rfl)
  · exact (downstream none [] (by rw [empty]; rfl) (by rw [empty]; rfl)).trans (by rw [← empty]; rfl)
  · refine congrArg Host.Outcome.next (acting_unclaimed (u := (s.setTime t).setHlp { s.hlp with queue := rest }) rst rfl ?_)
    rw [State.headTransmitDone, show (s.begun t).hlp.queue = f :: rest from held]
    rfl

end Sys2Proof.Machine
end

section
/-! PROOFS. The arbiter row by row (R145, R147, R156 to R158, R178), the choice of an idle transmitter, and the offer of a segment report
(R142). -/

namespace Sys2Proof.Machine

/-! ### The arbiter's rows (R157) -/

theorem Notices.any_of_ne_empty {n : Notices} (pending : n ≠ Notices.empty) : n.any = true :=
  Bool.of_not_eq_false fun quiet => pending (Notices.eq_empty quiet)

section
variable {s : State}

theorem State.forwardAllowed_iff (s : State) :
    s.forwardAllowed = true ↔ s.rqu.entries = [] ∨ s.lcp.share < s.tst.share.getD 1 := by
  rw [State.forwardAllowed, Bool.or_eq_true, List.isEmpty_iff, decide_eq_true_iff]
  rfl

theorem State.arbitrate_answer {f : LineFrame} (slot : s.lcp.slot = some f) : s.arbitrate = s.sendAnswer f := by
  rw [State.arbitrate, slot]

theorem State.arbitrate_notice (slot : s.lcp.slot = none) (any : s.rqu.notices.any = true) : s.arbitrate = s.sendNotice := by
  rw [State.arbitrate, slot]
  exact if_pos any

theorem State.chooseResult_front {r : Report} {rest : List Report} (front : s.rqu.entries = r :: rest) :
    s.chooseResult = s.sendResult r rest := by
  rw [State.chooseResult, front]

theorem State.chooseResult_none (none_ : s.rqu.entries = []) : s.chooseResult = s := by
  rw [State.chooseResult, none_]

variable (slot : s.lcp.slot = none) (quiet : s.rqu.notices = Notices.empty)
include slot quiet

theorem State.arbitrate_shared :
    s.arbitrate = match s.lcp.up with
      | f :: rest => if s.forwardAllowed then s.sendForward f rest else s.chooseResult
      | [] => s.chooseResult := by
  rw [State.arbitrate, slot]
  exact if_neg (by rw [quiet]; decide)

theorem State.arbitrate_forward {f : LineFrame} {rest : List LineFrame} (front : s.lcp.up = f :: rest)
    (turn : s.rqu.entries = [] ∨ s.lcp.share < s.tst.share.getD 1) : s.arbitrate = s.sendForward f rest := by
  rw [State.arbitrate_shared slot quiet, front]
  exact if_pos (s.forwardAllowed_iff.2 turn)

theorem State.arbitrate_result {r : Report} {rest : List Report} (front : s.rqu.entries = r :: rest)
    (turn : s.lcp.up = [] ∨ s.tst.share.getD 1 ≤ s.lcp.share) : s.arbitrate = s.sendResult r rest := by
  rw [State.arbitrate_shared slot quiet]
  cases up : s.lcp.up with
  | nil => exact State.chooseResult_front front
  | cons f more =>
    have held : ¬ s.forwardAllowed = true := by
      rw [s.forwardAllowed_iff, front]
      simp only [List.cons_ne_nil, false_or, not_lt]
      exact turn.resolve_left (by simp [up])
    exact (if_neg held).trans (State.chooseResult_front front)

theorem State.arbitrate_free (up : s.lcp.up = []) (none_ : s.rqu.entries = []) : s.arbitrate = s := by
  rw [State.arbitrate_shared slot quiet, up]
  exact State.chooseResult_none none_

end

/-! ### What a chosen claimant leaves -/

/-- The command state once the answer in the slot has been chosen: that of a pending RESTART is in transmission (R178). -/
def CmuState.answerChosen : CmuState → CmuState
  | .idle => .idle
  | .restartPending _ => .restartPending .sending

theorem State.sendAnswer_eq (s : State) (f : LineFrame) :
    s.sendAnswer f = { s with
      lcp := { s.lcp with slot := none, upTx := some f }
      cmu := { s.cmu with state := s.cmu.state.answerChosen } } := by
  obtain ⟨_, _, _, _, _, _, _, _, _, _, ⟨state, _, _, _, _⟩, _, _, _, _⟩ := s
  cases state <;> rfl

/-! ### The transmitter that has sent its frame (R157, R178) -/

/-- How far a RESTART answer has gone once the upstream transmitter has sent its frame (log 13). -/
def State.progressAfterFrame (s : State) : CmuState :=
  if s.cmu.state = .restartPending .sending then .restartPending .sent else s.cmu.state

/-- The part at time `t` with its upstream transmitter free, before the arbiter chooses. -/
def State.freed (s : State) (t : PartTime) : State :=
  ((s.setTime t).setLcp { s.lcp with upTx := none }).setCmu { s.cmu with state := s.progressAfterFrame }

/-- An answer that is chosen then is in transmission, whatever was sent before. -/
theorem State.progressAfterFrame_answerChosen (s : State) : s.progressAfterFrame.answerChosen = s.cmu.state.answerChosen := by
  unfold State.progressAfterFrame
  split_ifs with sending
  · rw [sending]
    rfl
  · rfl

theorem State.finishUp_begun (s : State) (t : PartTime) : (s.begun t).finishUp = (s.freed t).setReady none := by
  unfold State.freed State.progressAfterFrame
  obtain ⟨_, _, _, _, _, _, _, _, _, _, ⟨state, _, _, _, _⟩, _, _, _, _⟩ := s
  cases state with
  | idle => rfl
  | restartPending progress => cases progress <;> rfl

/-- The step is the arbiter's choice alone: nothing has become ready within it (R157). -/
theorem exec_upstreamTransmitterFree {s u : State} (rst : s.rstHigh = true) {t : PartTime} (ready : u.ready = s.ready)
    (chosen : ((s.freed t).setReady none).arbitrate = u.setReady none) : exec (.upstreamTransmitterFree t) s = .next u := by
  refine congrArg Host.Outcome.next (acting_unclaimed rst ready ?_)
  rw [State.upstreamFree, State.finishUp_begun, chosen]

/-! ### The obligations -/

/-- Settles O31: the first two rows, and the claimants of an idle transmitter that stand in them. -/
theorem arbiterAnswerThenNotice : Obligations.ArbiterAnswerThenNotice := by
  refine ⟨fun t s rst => ⟨fun f slot => ?_, fun slot pending => ?_⟩, fun s => ⟨fun same => ?_, fun f idle ready slot => ?_,
    fun idle ready pending => ?_⟩⟩
  · refine exec_upstreamTransmitterFree rst rfl ?_
    rw [State.arbitrate_answer (s := (s.freed t).setReady none) slot, State.sendAnswer_eq,
      show ((s.freed t).setReady none).cmu.state.answerChosen = _ from s.progressAfterFrame_answerChosen]
    rfl
  · refine exec_upstreamTransmitterFree rst rfl ?_
    rw [State.arbitrate_notice (s := (s.freed t).setReady none) slot (Notices.any_of_ne_empty pending)]
    rfl
  · exact s.settled_same same.symm
  · rw [s.settled_idle ready idle, State.chooseFirst, State.arbitrate_answer slot, State.sendAnswer_eq]
    rfl
  · rw [s.settled_idle ready idle, State.chooseFirst, if_pos (Notices.any_of_ne_empty pending)]
    rfl

/-- Settles O32: the last rows, and the claimants of an idle transmitter that stand in them. -/
theorem arbiterSharesThePort : Obligations.ArbiterSharesThePort := by
  refine ⟨fun t s rst slot quiet => ?_, fun s idle => ⟨fun f rest ready front => ?_, fun r rest ready front => ?_⟩⟩
  · let freed := (s.freed t).setReady none
    refine ⟨fun f rest front empty => ?_, fun f rest front waiting below => ?_, fun r rest front turn => ?_, fun up empty => ?_⟩ <;>
      refine exec_upstreamTransmitterFree rst rfl ?_
    · rw [State.arbitrate_forward (s := freed) slot quiet front (.inl empty), State.sendForward_shareForwarding,
        State.shareForwarding, if_pos (show freed.rqu.entries = [] from empty)]
      rfl
    · rw [State.arbitrate_forward (s := freed) slot quiet front (.inr below), State.sendForward_shareForwarding,
        State.shareForwarding, if_neg (show ¬ freed.rqu.entries = [] from waiting)]
      rfl
    · rw [State.arbitrate_result (s := freed) slot quiet front turn]
      cases r <;> rfl
    · rw [State.arbitrate_free (s := freed) slot quiet up empty]
      rfl
  · rw [s.settled_idle ready idle, State.chooseFirst, front]
    exact State.sendForward_shareForwarding s f rest
  · rw [s.settled_idle ready idle, State.chooseFirst, front]
    cases r <;> rfl

/-! ### The offer of a segment report (R142) -/

theorem Rqu.refuses_iff (q : Rqu) : q.refuses = true ↔ 62 ≤ q.segments ∨ 64 ≤ q.entries.length + q.reservations := by
  simp [Rqu.refuses]

/-- Settles O54: within its capacities the queue refuses at the two bounds alone. -/
theorem segmentReportOffered : Obligations.SegmentReportOffered := by
  intro s r segments places
  refine ⟨fun many => if_pos (s.rqu.refuses_iff.2 (.inl (by omega))), fun full => if_pos (s.rqu.refuses_iff.2 (.inr (by omega))),
    fun few room => if_neg fun refused => ?_⟩
  have := s.rqu.refuses_iff.1 refused
  omega

end Sys2Proof.Machine
end

section
/-! PROOFS. The queue of waiting commands, which is the model's own (R162): no operation of any block changes it, and so no command does. -/

namespace Sys2Proof.Machine

/-! ### Shared operations, the heads and the round tally -/

section
variable (s : State)

@[simp] theorem State.setHead_keeps_pending (h : Fin 8) (r : HeadRecord) : (s.setHead h r).pending = s.pending := rfl
@[simp] theorem State.setFire_keeps_pending (h : Fin 8) (r : FireRecord) : (s.setFire h r).pending = s.pending := rfl
@[simp] theorem State.handHead_keeps_pending (f : HeadFrame) : (s.handHead f).pending = s.pending := rfl
@[simp] theorem State.hold_keeps_pending (i : Item) : (s.hold i).pending = s.pending := rfl

@[simp] theorem State.setFilter_keeps_pending (line : GateLine) (f : GateFilter) : (s.setFilter line f).pending = s.pending := by
  cases line <;> rfl

@[simp] theorem State.report_keeps_pending (kind : CaptureKind) (source : CaptureSource) (time : PartTime) (detail : Nat) :
    (s.report kind source time detail).pending = s.pending :=
  (ResolutionFrame.report s kind source time detail).pending

@[simp] theorem State.recomputeLevel_keeps_pending : s.recomputeLevel.pending = s.pending :=
  (CompletionFrame.recomputeLevel s).pending

@[simp] theorem State.replied_keeps_pending (h : Fin 8) : (s.replied h).pending = s.pending :=
  (CompletionFrame.replied s h).pending

@[simp] theorem State.recordMiss_keeps_pending (h : Fin 8) (kind : FireKind) : (s.recordMiss h kind).pending = s.pending :=
  (CompletionFrame.recordMiss s h kind).pending

@[simp] theorem State.releaseRequest_keeps_pending (h : Fin 8) : (s.releaseRequest h).pending = s.pending :=
  (CompletionFrame.releaseRequest s h).pending

@[simp] theorem State.completeCalibration_keeps_pending (h : Fin 8) (k : Nat) (cal : CalState) :
    (s.completeCalibration h k cal).pending = s.pending :=
  (CompletionFrame.completeCalibration s h k cal).pending

@[simp] theorem State.modTally_keeps_pending (round : Nat) (f : Tally → Tally) : (s.modTally round f).pending = s.pending := rfl

@[simp] theorem State.tallyResolved_keeps_pending (round : Nat) (isMiss : Bool) : (s.tallyResolved round isMiss).pending = s.pending :=
  (TallyFrame.tallyResolved s round isMiss).pending

@[simp] theorem State.endRound_keeps_pending : s.endRound.pending = s.pending :=
  (TallyFrame.endRound s).pending

/-! ### Shots, gates and motion samples (R67, R73, R74, R92 to R102) -/

@[simp] theorem State.resolveShot_keeps_pending (x : Shot) : (s.resolveShot x).pending = s.pending :=
  (ResolutionFrame.resolveShot s x).pending

@[simp] theorem State.resolveGate_keeps_pending (g : GateEdge) : (s.resolveGate g).pending = s.pending :=
  (ResolutionFrame.resolveGate s g).pending

@[simp] theorem State.discardStale_keeps_pending (x : Shot) : (s.discardStale x).pending = s.pending := by
  unfold State.discardStale
  split <;> simp

@[simp] theorem State.shotArrival_keeps_pending (x : Shot) : (s.shotArrival x).pending = s.pending := by
  unfold State.shotArrival
  split_ifs <;> simp

@[simp] theorem State.gateArrival_keeps_pending (g : GateEdge) : (s.gateArrival g).pending = s.pending := by
  unfold State.gateArrival
  split_ifs <;> simp

@[simp] theorem State.resolutionPass_keeps_pending (x : Sample) : (s.resolutionPass x).pending = s.pending := by
  obtain ⟨n, -, -, -, frame⟩ := s.passItems_spec x.tau s.rsq.items rfl
  exact (frame.trans (.endOfPass _ x.enc)).pending

@[simp] theorem State.motionSample_keeps_pending (t : PartTime) (x : Sample) (fault : Bool) :
    (s.motionSample t x fault).pending = s.pending := by
  unfold State.motionSample
  split_ifs <;> simp

@[simp] theorem State.takeEdge_keeps_pending (line : GateLine) (date : PartTime) : (s.takeEdge line date).pending = s.pending := by
  unfold State.takeEdge
  dsimp only
  split <;> simp

@[simp] theorem State.lineChange_keeps_pending (line : GateLine) (t : PartTime) (high : Bool) :
    (s.lineChange line t high).pending = s.pending := by
  unfold State.lineChange State.beginChange
  dsimp only
  split_ifs <;> simp

@[simp] theorem State.filterExpiry_keeps_pending (line : GateLine) : (s.filterExpiry line).pending = s.pending := by
  unfold State.filterExpiry
  split <;> simp

/-! ### The calibration timer and the effects of table writes (R49, R57 to R59, R185) -/

@[simp] theorem State.timerExpiry_keeps_pending : s.timerExpiry.pending = s.pending := by
  have request (a : State) : a.timerRequest.pending = a.pending := by
    unfold State.timerRequest
    split <;> rfl
  unfold State.timerExpiry
  split
  · rfl
  · exact (State.setHcu_pending _ _).trans ((request _).trans (s.setTime_pending _))

@[simp] theorem State.headWritten_keeps_pending (h : Fin 8) : (s.headWritten h).pending = s.pending := by
  have followed : (s.headStateWritten h).pending = s.pending := by
    unfold State.headStateWritten
    split <;> simp
  simp [State.headWritten, State.clampHead, followed]

@[simp] theorem State.writeTable_keeps_pending (t : PartTime) (table index : Nat) (c : Bytes) :
    (s.writeTable t table index c).1.pending = s.pending := by
  have effects (a : State) : (a.writeEffects t table index).pending = a.pending := by
    unfold State.writeEffects State.setupWritten
    split
    · simp
    · split <;> rfl
    · rfl
  unfold State.writeTable
  split <;> simp [effects]

/-! ### The schedule (R26 to R44) -/

@[simp] theorem State.beginRound_keeps_pending : s.beginRound.pending = s.pending := rfl
@[simp] theorem State.beginCycle_keeps_pending (count : Nat) (t : PartTime) : (s.beginCycle count t).pending = s.pending := rfl
@[simp] theorem State.raiseScheduleHalted_keeps_pending : s.raiseScheduleHalted.pending = s.pending := rfl

@[simp] theorem State.startSchedule_keeps_pending (t : PartTime) : (s.startSchedule t).1.pending = s.pending := by
  have validated : (s.validateAndRun t).1.pending = s.pending := by
    unfold State.validateAndRun
    split
    · simp [State.halt]
    · simp [State.beginRun]
  unfold State.startSchedule
  split
  · exact validated
  · exact validated
  · rfl
  · rfl

@[simp] theorem State.stopSchedule_keeps_pending : s.stopSchedule.pending = s.pending := by
  unfold State.stopSchedule
  split <;> rfl

@[simp] theorem State.endCycle_keeps_pending : s.endCycle.pending = s.pending := by
  unfold State.endCycle State.nextCycle
  dsimp only
  split
  · split_ifs <;> simp
  · simp
  · rfl
  · rfl

@[simp] theorem State.reachEntry_keeps_pending (n : Nat) : (s.reachEntry n).pending = s.pending := by
  have issued (a : State) (h : Fin 8) (kind : FireKind) (t : PartTime) (window : Nat) :
      (a.issueFire h kind t window).pending = a.pending := rfl
  have fired (a : State) (t : PartTime) (h : Fin 8) (profile : Fin 4) (steal : Bool) :
      (a.firePoint n t h profile steal).pending = a.pending := by
    unfold State.firePoint
    split
    · simp [State.skipFire]
    · exact issued a _ _ _ _
    · exact issued a _ _ _ _
  unfold State.reachEntry
  dsimp only
  split
  · rfl
  · rfl
  · split_ifs <;> simp [fired]

@[simp] theorem State.windowExpiry_keeps_pending (h : Fin 8) : (s.windowExpiry h).pending = s.pending := by
  unfold State.windowExpiry
  split <;> simp

/-! ### The head link (R37, R202 to R205) -/

@[simp] theorem State.routeReply_keeps_pending (h : Fin 8) (r : ShotReport) : (s.routeReply h r).pending = s.pending := by
  unfold State.routeReply State.calibrationReply
  split <;> simp

@[simp] theorem State.matchReport_keeps_pending (t : PartTime) (h : Fin 8) (r : ShotReport) :
    (s.matchReport t h r).pending = s.pending := by
  unfold State.matchReport
  split
  · split_ifs <;> simp [State.closeFire]
  · split_ifs <;> simp
  · simp

@[simp] theorem State.malformedShot_keeps_pending (t : PartTime) (h : Fin 8) (p : Bytes) : (s.malformedShot t h p).pending = s.pending := by
  unfold State.malformedShot
  dsimp only
  split_ifs <;> simp

@[simp] theorem State.headArrival_keeps_pending (t : PartTime) (f : HeadFrame) : (s.headArrival t f).pending = s.pending := by
  unfold State.headArrival State.shotFrame State.motionFrame
  split_ifs
  · rfl
  · split <;> simp
  all_goals simp

@[simp] theorem State.headLinkBytes_keeps_pending (t : PartTime) (received : Bytes) : (s.headLinkBytes t received).pending = s.pending := by
  unfold State.headLinkBytes
  split_ifs
  · rfl
  · split <;> simp

@[simp] theorem State.headTransmitDone_keeps_pending : s.headTransmitDone.pending = s.pending := rfl

/-! ### The line chain (R150 to R161) and the resets -/

@[simp] theorem State.arbitrate_keeps_pending : s.arbitrate.pending = s.pending :=
  (ChoiceFrame.arbitrate s).pending

@[simp] theorem State.settled_keeps_pending : s.settled.pending = s.pending :=
  (ChoiceFrame.settled s).pending

@[simp] theorem State.upstreamFree_keeps_pending : s.upstreamFree.pending = s.pending := by
  have finished : s.finishUp.pending = s.pending := by
    unfold State.finishUp
    dsimp only
    split <;> rfl
  simp [State.upstreamFree, finished]

@[simp] theorem State.downstreamFree_keeps_pending : s.downstreamFree.pending = s.pending := by
  unfold State.downstreamFree
  split <;> rfl

@[simp] theorem State.enterDown_keeps_pending (t : PartTime) (f : LineFrame) : (s.enterDown t f).pending = s.pending := by
  unfold State.enterDown State.takeDown
  split_ifs <;> simp

@[simp] theorem State.downstreamArrival_keeps_pending (t : PartTime) (f : LineFrame) : (s.downstreamArrival t f).pending = s.pending := by
  unfold State.downstreamArrival State.enterUp
  split_ifs <;> simp

@[simp] theorem State.downstreamBytes_keeps_pending (t : PartTime) (received : Bytes) :
    (s.downstreamBytes t received).pending = s.pending := by
  unfold State.downstreamBytes
  split_ifs
  · rfl
  · split <;> simp

@[simp] theorem State.fallsIdle_keeps_pending (port : Receiver) : (s.fallsIdle port).pending = s.pending := by
  cases port <;> rfl

@[simp] theorem State.restart_keeps_pending (t : PartTime) (cut : Cut) : (s.restart t cut).pending = s.pending := rfl

@[simp] theorem State.restartDue_keeps_pending (t : PartTime) (cut : Cut) : (s.restartDue t cut).pending = s.pending := by
  unfold State.restartDue
  split <;> simp

/-! ### The Command Unit (R162 to R184) -/

@[simp] theorem State.actStart_keeps_pending (t : PartTime) : (s.actStart t).state.pending = s.pending := by
  have started := s.startSchedule_keeps_pending t
  unfold State.actStart
  split <;> rename_i e <;> rwa [e] at started

@[simp] theorem State.owner_keeps_pending (t : PartTime) (code : Nat) (args : Bytes) (isBroadcast : Bool) (cut : Cut) :
    (s.owner t code args isBroadcast cut).state.pending = s.pending := by
  unfold State.owner
  split
  · rfl
  · exact s.writeTable_keeps_pending t _ _ _
  · exact s.actStart_keeps_pending t
  · exact s.stopSchedule_keeps_pending
  · unfold State.actAnnounce
    split_ifs <;> rfl
  · unfold State.actRequestCal
    split_ifs <;> rfl
  · unfold State.actSetAddress
    split_ifs <;> rfl
  · rfl
  · unfold State.actSetScratch
    dsimp only
    split <;> rfl
  · rfl
  · unfold State.actRestart
    split_ifs <;> rfl
  · rfl

@[simp] theorem State.runCommand_keeps_pending (t : PartTime) (f : LineFrame) (cut : Cut) :
    (s.runCommand t f cut).state.pending = s.pending := by
  unfold State.runCommand
  split
  · rfl
  · split_ifs <;> simp

@[simp] theorem State.consume_keeps_pending (t : PartTime) (f : LineFrame) (cut : Cut) : (s.consume t f cut).pending = s.pending := by
  unfold State.consume State.takeCommand Reply.answered
  split_ifs <;> simp

@[simp] theorem State.upstreamArrival_keeps_pending (t : PartTime) (f : LineFrame) (cut : Cut) :
    (s.upstreamArrival t f cut).pending = s.pending := by
  unfold State.upstreamArrival
  split_ifs <;> simp

@[simp] theorem State.upstreamBytes_keeps_pending (t : PartTime) (received : Bytes) : (s.upstreamBytes t received).pending = s.pending := by
  unfold State.upstreamBytes
  split_ifs
  · rfl
  · split <;> simp

end

/-! ### Commands -/

/-- A step taken whole leaves the queue when its effects do. -/
theorem whole_keeps_pending {f : State → State} (kept : ∀ a, (f a).pending = a.pending) (s : State) :
    (whole s f).pending = s.pending := by
  simp [whole, kept]

theorem acting_keeps_pending {f : State → State} (kept : ∀ a, (f a).pending = a.pending) (t : PartTime) (s : State) :
    (acting t s f).pending = s.pending := by
  unfold acting
  split_ifs
  · exact whole_keeps_pending kept _
  · rfl

theorem actingTimed_keeps_pending {f : State → State} (kept : ∀ a, (f a).pending = a.pending) (s : State) :
    (actingTimed s f).pending = s.pending := by
  unfold actingTimed
  split_ifs
  · exact whole_keeps_pending kept s
  · rfl

/-- Settles O2: each command is the effects of one event, taken whole or not at all, and none of them changes the queue. -/
theorem commandsLeaveTheQueue : Obligations.CommandsLeaveTheQueue := by
  intro c s s' next
  have command (t : PartTime) (h : CommandHeader) (code : Byte) (args : Bytes) (cut : Cut) :
      (s.commandArrives t h code args cut).pending = s.pending :=
    acting_keeps_pending (fun a => a.upstreamArrival_keeps_pending t _ cut) t s
  have frame (t : PartTime) (f : HeadFrame) : (acting t s fun a => a.headArrival t f).pending = s.pending :=
    acting_keeps_pending (fun a => a.headArrival_keeps_pending t f) t s
  cases c <;> obtain rfl := Host.Outcome.next.inj next
  case readTable t h args => exact command t h 1 args _
  case writeTable t h args => exact command t h 2 args _
  case start t h args => exact command t h 3 args _
  case stop t h args => exact command t h 4 args _
  case announce t h args => exact command t h 5 args _
  case requestCal t h args => exact command t h 6 args _
  case setAddress t h args => exact command t h 7 args _
  case status t h args => exact command t h 8 args _
  case setScratch t h args => exact command t h 9 args _
  case clearCapture t h args => exact command t h 10 args _
  case restart t h args cut => exact command t h 11 args cut
  case restartTakesEffect t cut => exact acting_keeps_pending (fun a => a.restartDue_keeps_pending t cut) t s
  case coldReset t cut => rfl
  case rstRise t => split_ifs <;> rfl
  case shotReport t node payload => exact frame t _
  case motionReport t node payload => exact frame t _
  case headLinkUnknownKind t node kind payload => exact frame t _
  case headFrameCheck t received => exact acting_keeps_pending (fun a => a.headLinkBytes_keeps_pending t received) t s
  case upstreamFrameArrival t f => exact acting_keeps_pending (fun a => a.upstreamArrival_keeps_pending t f _) t s
  case downstreamFrameArrival t f => exact acting_keeps_pending (fun a => a.downstreamArrival_keeps_pending t f) t s
  case lineFrameCheck t port received =>
    cases port with
    | upstream => exact acting_keeps_pending (fun a => a.upstreamBytes_keeps_pending t received) t s
    | downstream => exact acting_keeps_pending (fun a => a.downstreamBytes_keeps_pending t received) t s
  case upstreamTransmitterFree t => exact acting_keeps_pending (fun a => a.upstreamFree_keeps_pending) t s
  case downstreamTransmitterFree t => exact acting_keeps_pending (fun a => a.downstreamFree_keeps_pending) t s
  case headLinkTransmitDone t => exact acting_keeps_pending (fun a => a.headTransmitDone_keeps_pending) t s
  case cycleEnd => exact actingTimed_keeps_pending (fun a => a.endCycle_keeps_pending) s
  case firingPoint entry => exact actingTimed_keeps_pending (fun a => a.reachEntry_keeps_pending entry.val) s
  case replyWindowExpiry head => exact actingTimed_keeps_pending (fun a => a.windowExpiry_keeps_pending head) s
  case calibrationTimerExpiry => exact actingTimed_keeps_pending (fun a => a.timerExpiry_keeps_pending) s
  case gateLineChange t line high =>
    split_ifs
    · exact whole_keeps_pending (fun a => a.lineChange_keeps_pending line t high) (s.setTime t)
    · exact State.setFilter_keeps_pending _ line _
  case gateFilterExpiry line => exact actingTimed_keeps_pending (fun a => a.filterExpiry_keeps_pending line) s
  case lineFallsIdle t port => exact acting_keeps_pending (fun a => a.fallsIdle_keeps_pending port) t s

end Sys2Proof.Machine
end

section
/-! PROOFS. STATUS (R169, R170, R208), SET_SCRATCH (R171), and the first two checks of a command (R164, R206). -/

namespace Sys2Proof.Machine

/-! ### The status record (R169, R208) -/

/-- Among blocks of one size, the block of an item is read at its place. -/
theorem read_block {α : Type} {block : α → Bytes} {size : Nat} (sized : ∀ a, (block a).length = size) (behind : Bytes) (l : List α)
    (i : Nat) (h : i < l.length) : ((l.flatMap block ++ behind).drop (size * i)).take size = block l[i] := by
  induction l generalizing i with
  | nil => exact absurd h (Nat.not_lt_zero i)
  | cons a l ih =>
    cases i with
    | zero => simp [← sized a]
    | succ i =>
      have further : size * (i + 1) = (block a).length + size * i := by rw [sized, Nat.mul_succ, Nat.add_comm]
      rw [List.flatMap_cons, List.append_assoc, further, List.drop_length_add_append]
      exact ih i (Nat.lt_of_succ_lt_succ h)

theorem captureBlock_length (c : Cmu) : c.captureBlock.length = 9 := by
  unfold Cmu.captureBlock
  split <;> rfl

theorem byteOf_flagNat (b : Bool) : byteOf (flagNat b) = if b = true then 1 else 0 := by
  cases b <;> rfl

theorem byteOf_flagNat_not (b : Bool) : byteOf (flagNat (!b)) = if b = true then 0 else 1 := by
  cases b <;> rfl

section
variable (s : State)

/-- The groups of the status record, in its order: schedule, heads, request and pointer, contexts, fills, capture record, scratch words with
the address, and part time (R208). -/
def State.statusGroups : List Bytes :=
  [[byteOf s.fsc.state.code, byteOf s.fsc.level.code, byteOf s.fsc.cycleCount, byteOf (flagNat s.fsc.lastShort)],
    allHeads.flatMap fun h => headBlock (s.head h),
    [byteOf ((s.hcu.request.map Fin.val).getD 255), byteOf s.hcu.pointer.val],
    contextBlock (s.ctx 0) ++ contextBlock (s.ctx 1),
    s.fills,
    s.cmu.captureBlock,
    be16 s.cmu.scratch0.toNat ++ be16 s.cmu.scratch1.toNat ++ [s.lcp.address],
    be32 s.partTime.toNat]

/-- The sizes of those groups. -/
def statusSizes : List Nat :=
  [4, 72, 2, 8, 10, 9, 5, 4]

theorem State.statusGroups_sizes : s.statusGroups.map List.length = statusSizes := by
  simp only [State.statusGroups, List.map_cons, captureBlock_length]
  rfl

theorem State.statusRecord_eq : s.statusRecord = s.statusGroups.flatten := by
  unfold State.statusRecord State.statusGroups
  cases s.hcu.request <;> simp

theorem State.statusRecord_length : s.statusRecord.length = 114 := by
  rw [State.statusRecord_eq, List.length_flatten, State.statusGroups_sizes]
  rfl

/-- Behind the first groups of the record stand the others. -/
theorem State.statusRecord_drop (n : Nat) : s.statusRecord.drop (statusSizes.take n).sum = (s.statusGroups.drop n).flatten := by
  rw [State.statusRecord_eq, ← State.statusGroups_sizes, List.drop_sum_flatten]

/-- Each group is read at its place in its size. -/
theorem State.statusRecord_group (n : Fin 8) :
    (s.statusRecord.drop (statusSizes.take n).sum).take (statusSizes[n]) = s.statusGroups[n] := by
  have size : s.statusGroups[n].length = statusSizes[n] :=
    (List.getElem_map List.length).symm.trans (List.getElem_of_eq s.statusGroups_sizes n.isLt)
  rw [State.statusRecord_drop, List.drop_eq_getElem_cons n.isLt, List.flatten_cons, ← size]
  exact List.take_left

/-- The block of each head is read at its place among the heads. -/
theorem State.statusRecord_head (i : Fin 8) : (s.statusRecord.drop (4 + 9 * i.val)).take 9 = headBlock (s.head i) := by
  have heads : s.statusRecord.drop 4 = allHeads.flatMap (fun h => headBlock (s.head h)) ++ (s.statusGroups.drop 2).flatten :=
    s.statusRecord_drop 1
  have inOrder : ∀ j : Fin 8, allHeads[j.val]'j.isLt = j := by decide
  have block := read_block (size := 9) (block := fun h => headBlock (s.head h)) (fun _ => rfl) (s.statusGroups.drop 2).flatten allHeads
    i.val i.isLt
  rw [← List.drop_drop, heads, block, inOrder]

end

/-- Settles O19: the owner answers the record of the state at its part time, whose groups stand at the places that their sizes give. -/
theorem statusAnswers : Obligations.StatusAnswers := by
  intro t h s takes
  let u := s.begun t
  refine ⟨u.statusRecord, congrArg Host.Outcome.next (State.commandArrives_answered (u := s) (status := .done) (code := 8) (args := [])
    (cut := Cut.nothing) takes rfl rfl), u.statusRecord_length, ?_, fun i => ?_, ?_, u.statusRecord_group 3, u.statusRecord_group 4,
    u.statusRecord_group 5, u.statusRecord_group 6, ?_⟩
  · rw [← byteOf_flagNat]
    exact u.statusRecord_group 0
  · rw [← byteOf_flagNat_not]
    exact u.statusRecord_head i
  · refine (u.statusRecord_group 2).trans ?_
    change [byteOf ((s.hcu.request.map Fin.val).getD 255), byteOf s.hcu.pointer.val] = _
    cases s.hcu.request <;> rfl
  · exact (u.statusRecord_drop 7).trans (List.append_nil _)

/-! ### SET_SCRATCH (R171) -/

section
variable (s : State) (hi lo : Byte)

theorem field_word (i : Byte) : field [i, hi, lo] 1 2 = 256 * hi.toNat + lo.toNat := by
  simp [field, bytesToNat, Nat.mul_comm]

theorem State.actSetScratch_first :
    s.actSetScratch [0, hi, lo]
      = ⟨s.setCmu { s.cmu with scratch0 := BitVec.ofNat 16 (256 * hi.toNat + lo.toNat) }, .done, be16 s.cmu.scratch0.toNat⟩ := by
  rw [State.actSetScratch, field_word]
  rfl

theorem State.actSetScratch_second :
    s.actSetScratch [1, hi, lo]
      = ⟨s.setCmu { s.cmu with scratch1 := BitVec.ofNat 16 (256 * hi.toNat + lo.toNat) }, .done, be16 s.cmu.scratch1.toNat⟩ := by
  rw [State.actSetScratch, field_word]
  rfl

theorem State.actSetScratch_index {i : Byte} (above : 1 < i.toNat) : s.actSetScratch [i, hi, lo] = ⟨s, .badIndex, []⟩ := by
  have index : field [i, hi, lo] 0 1 = i.toNat := field_byte i
  unfold State.actSetScratch
  rw [index]
  dsimp only
  split
  · omega
  · omega
  · rfl

end

/-- SET_SCRATCH, taken: the answer of its owner, which raises no notice. -/
theorem exec_setScratch_answered {s u : State} {h : CommandHeader} (takes : s.takes h = true) {t : PartTime} {i hi lo : Byte}
    {status : Status} {data : Bytes} (ready : u.ready = s.ready)
    (acts : (s.begun t).actSetScratch [i, hi, lo] = ⟨u.begun t, status, data⟩) :
    exec (.setScratch t h [i, hi, lo]) s = .next (u.withAnswer t h status.code data) :=
  congrArg Host.Outcome.next
    (State.commandArrives_answered takes ready (code := 9) (args := [i, hi, lo]) (cut := Cut.nothing) acts)

/-- Settles O20: each row is one of the owner's answers. -/
theorem setScratchSwaps : Obligations.SetScratchSwaps := by
  intro t h s i hi lo takes
  refine ⟨?_, ?_, fun above => ?_⟩
  · rintro rfl
    exact exec_setScratch_answered takes (status := .done) rfl ((s.begun t).actSetScratch_first hi lo)
  · rintro rfl
    exact exec_setScratch_answered takes (status := .done) rfl ((s.begun t).actSetScratch_second hi lo)
  · exact exec_setScratch_answered takes (status := .badIndex) rfl ((s.begun t).actSetScratch_index hi lo above)

/-! ### The checks of a command's form (R164, R206) -/

section
variable (s : State) (t : PartTime) (cut : Cut) {f : LineFrame}

theorem State.runCommand_empty (empty : f.payload = []) : s.runCommand t f cut = ⟨s, .unknownCommand, []⟩ := by
  rw [State.runCommand, empty]

theorem State.runCommand_unknown {code : Byte} {args : Bytes} (payload : f.payload = code :: args)
    (unknown : code.toNat = 0 ∨ 11 < code.toNat) : s.runCommand t f cut = ⟨s, .unknownCommand, []⟩ := by
  rw [State.runCommand, payload]
  exact if_pos unknown

theorem State.runCommand_misfit {code : Byte} {args : Bytes} (payload : f.payload = code :: args)
    (known : ¬ (code.toNat = 0 ∨ 11 < code.toNat)) (misfit : lengthOk code.toNat args = false) :
    s.runCommand t f cut = ⟨s, .badValue, []⟩ := by
  rw [State.runCommand, payload]
  exact (if_neg known).trans (if_neg (by simp [misfit]))

end

/-- The length that the model checks is the one that R206 requires. -/
theorem lengthOk_eq_argsRight (code : Nat) (args : Bytes) : lengthOk code args = argsRight code args := by
  unfold lengthOk
  split <;> simp_all [argsRight, beq_eq_decide]

/-- A COMMAND frame of any payload that is taken, with an answer that changes nothing else. -/
theorem exec_upstreamFrame_refused {s : State} {h : CommandHeader} (takes : s.takes h = true) {t : PartTime} {payload : Bytes}
    {status : Status}
    (run : (s.begun t).runCommand t ⟨h.dest, h.source, kindCommand, h.tag, payload⟩ Cut.nothing = ⟨s.begun t, status, []⟩) :
    exec (.upstreamFrameArrival t ⟨h.dest, h.source, 1, h.tag, payload⟩) s = .next (s.withAnswer t h status.code []) := by
  obtain ⟨rst, hears, own, addressed, slot, idle⟩ := (s.takes_iff h).1 takes
  let f : LineFrame := ⟨h.dest, h.source, kindCommand, h.tag, payload⟩
  have answered : (s.begun t).upstreamArrival t f Cut.nothing = (⟨s.begun t, status, []⟩ : Reply).answered f := by
    rw [State.upstreamArrival_consume (s.begun t) t f Cut.nothing hears own addressed,
      State.consume_command (s.begun t) t f Cut.nothing rfl slot idle addressed, run]
  refine congrArg Host.Outcome.next ((acting_of_rstHigh rst t fun a => a.upstreamArrival t f Cut.nothing).trans ?_)
  rw [answered]
  exact State.settled_answer s t h 0 [] status []

/-- Settles O25: the checks come before the owner, and the answer is all that they leave. -/
theorem commandFormChecks : Obligations.CommandFormChecks := by
  intro t h s takes
  refine ⟨?_, fun code args unknown => ?_, fun code args least most wrong => ?_⟩
  · exact exec_upstreamFrame_refused takes (status := .unknownCommand) (State.runCommand_empty _ t _ rfl)
  · exact exec_upstreamFrame_refused takes (status := .unknownCommand) (State.runCommand_unknown _ t _ rfl unknown)
  · exact exec_upstreamFrame_refused takes (status := .badValue)
      (State.runCommand_misfit _ t _ rfl (by omega) ((lengthOk_eq_argsRight code.toNat args).trans wrong))

end Sys2Proof.Machine
end

section
/-! PROOFS. READ_TABLE (R183, R197), and the WRITE_TABLE that is refused, by the first check that fails (R184 to R192, R194 to R196). -/

namespace Sys2Proof.Machine

/-! ### READ_TABLE (R197) -/

section
variable (s : State) {table index : Byte}

theorem field_pair_first (a b : Byte) : field [a, b] 0 1 = a.toNat := by
  simp [field, bytesToNat]

theorem field_pair_second (a b : Byte) : field [a, b] 1 1 = b.toNat := by
  simp [field, bytesToNat]

theorem State.actReadTable_table (above : 9 < table.toNat) : s.actReadTable [table, index] = ⟨s, .badTable, []⟩ := by
  rw [State.actReadTable, State.readTable, field_pair_first, if_pos above]

theorem State.actReadTable_index (known : table.toNat ≤ 9) (above : maxIndex table.toNat < index.toNat) :
    s.actReadTable [table, index] = ⟨s, .badIndex, []⟩ := by
  rw [State.actReadTable, State.readTable, field_pair_first, field_pair_second, if_neg (Nat.not_lt.2 known), if_pos above]

theorem State.actReadTable_held (known : table.toNat ≤ 9) (held : index.toNat ≤ maxIndex table.toNat) :
    s.actReadTable [table, index] = ⟨s, .done,
      [table, index, s.tst.readFlags table.toNat index.toNat] ++ s.tst.contents table.toNat index.toNat⟩ := by
  rw [State.actReadTable, State.readTable, field_pair_first, field_pair_second, if_neg (Nat.not_lt.2 known), if_neg (Nat.not_lt.2 held),
    byteOf_byte, byteOf_byte]

end

/-- READ_TABLE, taken: the answer of its owner, which raises no notice. -/
theorem exec_readTable_answered {s u : State} {h : CommandHeader} (takes : s.takes h = true) {t : PartTime} {table index : Byte}
    {status : Status} {data : Bytes} (ready : u.ready = s.ready)
    (acts : (s.begun t).actReadTable [table, index] = ⟨u.begun t, status, data⟩) :
    exec (.readTable t h [table, index]) s = .next (u.withAnswer t h status.code data) :=
  congrArg Host.Outcome.next
    (State.commandArrives_answered takes ready (code := 1) (args := [table, index]) (cut := Cut.nothing) acts)

/-- Settles O7: each row is one of the owner's answers. -/
theorem readTableAnswers : Obligations.ReadTableAnswers := by
  intro t h s table index takes
  refine ⟨fun above => ?_, fun known above => ?_, fun known held => ?_⟩
  · exact exec_readTable_answered takes (status := .badTable) rfl (State.actReadTable_table _ above)
  · exact exec_readTable_answered takes (status := .badIndex) rfl (State.actReadTable_index _ known above)
  · exact exec_readTable_answered takes (status := .done) rfl (State.actReadTable_held (s.begun t) known held)

/-! ### The first check that fails (R184) -/

section
variable {s : State} {table index : Nat} {c : Bytes}

theorem State.writeRefusal_table (above : 9 < table) : s.writeRefusal table index c = some .badTable := by
  rw [State.writeRefusal, if_pos above]

variable (known : table ≤ 9)
include known

theorem State.writeRefusal_index (above : maxIndex table < index) : s.writeRefusal table index c = some .badIndex := by
  rw [State.writeRefusal, if_neg (Nat.not_lt.2 known), if_pos above]

variable (held : index ≤ maxIndex table)
include held

theorem State.writeRefusal_length (other : c.length ≠ contentsLength table) : s.writeRefusal table index c = some .badValue := by
  rw [State.writeRefusal, if_neg (Nat.not_lt.2 known), if_neg (Nat.not_lt.2 held), if_pos other]

variable (long : c.length = contentsLength table)
include long

theorem State.writeRefusal_locked (locked : s.Locked table) : s.writeRefusal table index c = some .locked := by
  rw [State.writeRefusal, if_neg (Nat.not_lt.2 known), if_neg (Nat.not_lt.2 held), if_neg (not_not.2 long),
    if_pos (s.writeLocked_iff table |>.2 locked)]

variable (unlocked : ¬ s.Locked table)
include unlocked

theorem State.writeRefusal_inUse (used : s.InUse table index) : s.writeRefusal table index c = some .inUse := by
  rw [State.writeRefusal, if_neg (Nat.not_lt.2 known), if_neg (Nat.not_lt.2 held), if_neg (not_not.2 long),
    if_neg (mt (s.writeLocked_iff table).1 unlocked), if_pos (s.writeInUse_iff table index |>.2 used)]

/-- Steps 6 and 7 answer the same code. -/
theorem State.writeRefusal_value (unused : ¬ s.InUse table index) (bad : ¬ (FieldsInRange table c ∧ s.CrossTable table c)) :
    s.writeRefusal table index c = some .badValue := by
  rw [State.writeRefusal, if_neg (Nat.not_lt.2 known), if_neg (Nat.not_lt.2 held), if_neg (not_not.2 long),
    if_neg (mt (s.writeLocked_iff table).1 unlocked), if_neg (mt (s.writeInUse_iff table index).1 unused)]
  rw [← contentsInRange_iff table known, ← s.contentsConsistent_iff] at bad
  cases fields : contentsInRange table c with
  | false => rfl
  | true => simp_all

end

/-- WRITE_TABLE, taken and refused: the code of the check that failed, and nothing else (R185). -/
theorem exec_writeTable_refused {s : State} {h : CommandHeader} (takes : s.takes h = true) (t : PartTime) {table index : Byte} {c : Bytes}
    {status : Status} (refused : s.writeRefusal table.toNat index.toNat c = some status) :
    exec (.writeTable t h (table :: index :: c)) s = .next (s.withAnswer t h status.code []) := by
  have kept : (s.begun t).writeTable t table.toNat index.toNat c = (s.begun t, status) := by
    rw [State.writeTable, show (s.begun t).writeRefusal table.toNat index.toNat c = some status from refused]
  exact congrArg Host.Outcome.next (State.commandArrives_answered takes rfl
    ((State.runCommand_write (s.begun t) t h table index c Cut.nothing).trans (by rw [kept])))

/-- Settles O10: every refusal answers its code alone, and the checks fail in their order. -/
theorem writeRefused : Obligations.WriteRefused := by
  intro t h s table index c takes refused
  have answers (status : Status) (fails : s.writeRefusal table.toNat index.toNat c = some status) : refused status.code :=
    exec_writeTable_refused takes t fails
  refine ⟨answers, fun above => ?_, fun known above => ?_, fun known held => ⟨fun other => ?_, fun long => ⟨fun locked => ?_,
    fun unlocked used => ?_, fun unlocked unused bad => ?_⟩⟩⟩
  · exact answers .badTable (State.writeRefusal_table above)
  · exact answers .badIndex (State.writeRefusal_index known above)
  · exact answers .badValue (State.writeRefusal_length known held other)
  · exact answers .locked (State.writeRefusal_locked known held long locked)
  · exact answers .inUse (State.writeRefusal_inUse known held long unlocked used)
  · exact answers .badValue (State.writeRefusal_value known held long unlocked unused bad)

end Sys2Proof.Machine
end

section
/-! PROOFS. Contents stored and read back (R184, R185, R197, R207): the bytes that a table gives of what it read are the bytes that it read. -/

namespace Sys2Proof.Machine

/-! ### Fields written where they were read -/

/-- The bytes stand in the contents, from a place on. -/
def StandsAt (b c : Bytes) (place : Nat) : Prop :=
  b <+: c.drop place

/-- Two runs of bytes, one behind the other in the contents, stand there as one. -/
theorem StandsAt.append {a b c : Bytes} {place : Nat} (first : StandsAt a c place) (second : StandsAt b c (place + a.length)) :
    StandsAt (a ++ b) c place := by
  obtain ⟨rest, parted⟩ := first
  have behind : c.drop (place + a.length) = rest := by
    rw [← List.drop_drop, ← parted, List.drop_left]
  rw [StandsAt, behind] at second
  rw [StandsAt, ← parted, List.prefix_append_right_inj]
  exact second

/-- Bytes that stand at the front of contents of their own length are those contents. -/
theorem StandsAt.eq {b c : Bytes} (stands : StandsAt b c 0) (long : c.length = b.length) : b = c :=
  List.IsPrefix.eq_of_length stands long.symm

/-- Bytes that stand at a place are the run of their length taken from there. -/
theorem StandsAt.eq_take {b c : Bytes} {place : Nat} (stands : StandsAt b c place) : b = (c.drop place).take b.length :=
  List.prefix_iff_eq_take.1 stands

section
variable {p : Bytes} {place : Nat}

theorem byte_standsAt (inside : place + 1 ≤ p.length) : StandsAt [byteOf (field p place 1)] p place := by
  have here : p.drop place = p[place] :: p.drop (place + 1) := List.drop_eq_getElem_cons inside
  have read : field p place 1 = p[place].toNat := by
    rw [field, here]
    exact field_byte p[place]
  rw [StandsAt, read, byteOf_byte, here]
  exact ⟨_, rfl⟩

theorem be16_bytesToNat (hi lo : Byte) : be16 (bytesToNat [hi, lo]) = [hi, lo] := by
  have value : bytesToNat [hi, lo] = hi.toNat * 256 + lo.toNat := by simp [bytesToNat]
  have high : (hi.toNat * 256 + lo.toNat) / 256 = hi.toNat := by omega
  have low : byteOf (hi.toNat * 256 + lo.toNat) = lo := by
    apply BitVec.eq_of_toNat_eq
    rw [byteOf_toNat]
    omega
  rw [value, be16, high, low, byteOf_byte]

theorem word_standsAt (inside : place + 2 ≤ p.length) : StandsAt (be16 (field p place 2)) p place := by
  have here : p.drop place = p[place] :: p[place + 1] :: p.drop (place + 2) := by
    rw [List.drop_eq_getElem_cons (by omega), List.drop_eq_getElem_cons (by omega)]
  have read : field p place 2 = bytesToNat [p[place], p[place + 1]] := by
    rw [field, here]
    rfl
  rw [StandsAt, read, be16_bytesToNat, here]
  exact ⟨_, rfl⟩

/-- A byte that names nothing beyond its lowest bit is written from that flag. -/
theorem flag_standsAt (inside : place + 1 ≤ p.length) (alone : field p place 1 ≤ 1) :
    StandsAt [byteOf (flagNat (flagBit p place 0))] p place := by
  have flag : flagNat (flagBit p place 0) = field p place 1 := by
    unfold flagBit
    interval_cases field p place 1 <;> rfl
  rw [flag]
  exact byte_standsAt inside

theorem bytesToNat_append_singleton (bs : Bytes) (b : Byte) : bytesToNat (bs ++ [b]) = bytesToNat bs * 256 + b.toNat := by
  simp [bytesToNat]

/-- Bytes that spell 0 are zeros. -/
theorem eq_replicate_of_bytesToNat_eq_zero {bs : Bytes} (zero : bytesToNat bs = 0) : bs = List.replicate bs.length 0 := by
  induction bs using List.reverseRecOn with
  | nil => rfl
  | append_singleton bs b ih =>
    rw [bytesToNat_append_singleton] at zero
    have last : b = 0 := BitVec.eq_of_toNat_eq (show b.toNat = 0 by omega)
    rw [List.length_append, List.length_singleton, List.replicate_succ', ← ih (by omega), last]

theorem zeros_standsAt {size : Nat} (inside : place + size ≤ p.length) (zero : field p place size = 0) :
    StandsAt (List.replicate size 0) p place := by
  have long : ((p.drop place).take size).length = size := by
    rw [List.length_take, List.length_drop]
    omega
  have zeros := eq_replicate_of_bytesToNat_eq_zero zero
  rw [long] at zeros
  rw [StandsAt, ← zeros]
  exact List.take_prefix _ _

end

/-! ### Entries of single fields -/

section
variable {c : Bytes}

theorem headEntryBytes_read (long : c.length = 11) (flag : field c 0 1 ≤ 1) : headEntryBytes (readHeadEntry c) = c := by
  have word (place : Nat) (inside : place ≤ 9) := word_standsAt (p := c) (place := place) (by omega)
  have enabled := flag_standsAt (p := c) (place := 0) (by omega) flag
  have thetaAndDistance := (enabled.append (word 1 (by decide))).append (word 3 (by decide))
  have referenceAndLimit := (thetaAndDistance.append (word 5 (by decide))).append (word 7 (by decide))
  exact (referenceAndLimit.append (word 9 (by decide))).eq long

theorem trackingBytes_read (long : c.length = 11) : trackingBytes (readTracking c) = c := by
  have word (place : Nat) (inside : place ≤ 9) := word_standsAt (p := c) (place := place) (by omega)
  have scaleLimit := byte_standsAt (p := c) (place := 4) (by omega)
  have first := ((word 0 (by decide)).append (word 2 (by decide))).append scaleLimit
  exact (((first.append (word 5 (by decide))).append (word 7 (by decide))).append (word 9 (by decide))).eq long

theorem productBytes_read (long : c.length = 22) : productBytes (readProduct c) = c := by
  have word (place : Nat) (inside : place ≤ 20) := word_standsAt (p := c) (place := place) (by omega)
  have byte (place : Nat) (inside : place ≤ 21) := byte_standsAt (p := c) (place := place) (by omega)
  have walls := ((word 0 (by decide)).append (word 2 (by decide))).append (word 4 (by decide))
  have sectors := walls.append ((byte 6 (by decide)).append (byte 7 (by decide)))
  have gate := ((sectors.append (word 8 (by decide))).append (word 10 (by decide))).append (word 12 (by decide))
  have shots := (gate.append (word 14 (by decide))).append ((byte 16 (by decide)).append (byte 17 (by decide)))
  exact ((shots.append (word 18 (by decide))).append (word 20 (by decide))).eq long

theorem byteOf_read (long : c.length = 1) : [byteOf (field c 0 1)] = c :=
  (byte_standsAt (by omega)).eq long

theorem profileBytes_read (long : c.length = 4) : profileBytes (readProfile c) = c := by
  have measure := word_standsAt (p := c) (place := 0) (by omega)
  have calibrate := word_standsAt (p := c) (place := 2) (by omega)
  exact (measure.append calibrate).eq long

theorem calSetupBytes_read (long : c.length = 3) (flag : field c 2 1 ≤ 1) : calSetupBytes (readCalSetup c) = c := by
  have interval := word_standsAt (p := c) (place := 0) (by omega)
  have defers := flag_standsAt (p := c) (place := 2) (by omega) flag
  exact (interval.append defers).eq long

theorem pattern_read (long : c.length = 2) : be16 (BitVec.ofNat 16 (field c 0 2)).toNat = c := by
  have fits : (BitVec.ofNat 16 (field c 0 2)).toNat = field c 0 2 :=
    Nat.mod_eq_of_lt (Nat.lt_succ_of_le (field_le_max c 0).2)
  rw [fits]
  exact (word_standsAt (by omega)).eq long

/-! ### Parts of equal groups -/

/-- Items written one behind the other are the contents when each is written as the bytes at its place. -/
theorem flatMap_ofFn_of_groups {α : Type} {block : α → Bytes} {size n : Nat} {item : Fin n → α} (long : c.length = n * size)
    (written : ∀ i, block (item i) = (c.drop (size * i.val)).take size) : (List.ofFn item).flatMap block = c := by
  induction n generalizing c with
  | zero => exact (List.length_eq_zero_iff.1 (by omega)).symm
  | succ n ih =>
    have rest : (List.ofFn fun i => item i.succ).flatMap block = c.drop size := by
      refine ih ?_ fun i => ?_
      · rw [List.length_drop, long, Nat.succ_mul, Nat.add_sub_cancel]
      · rw [written i.succ, List.drop_drop, Fin.val_succ, Nat.mul_succ, Nat.add_comm]
    rw [List.ofFn_succ, List.flatMap_cons, rest, written 0]
    exact List.take_append_drop size c

theorem gradePartBytes_read (long : c.length = 44) : gradePartBytes (readGradePart c) = c := by
  rw [gradePartBytes, readGradePart, Vector.toList_ofFn]
  refine flatMap_ofFn_of_groups (size := 4) long fun i => ?_
  have velocity := word_standsAt (p := c) (place := 4 * i.val) (by omega)
  have shrink := word_standsAt (p := c) (place := 4 * i.val + 2) (by omega)
  exact (velocity.append shrink).eq_take

/-! ### List entries (R194) -/

/-- The byte of profile and steal flag is written as it was read when its unnamed bits are zero (R207). -/
theorem profile_and_steal_read {n : Nat} (byte : n ≤ 255) (canonical : n % 128 < 4) :
    (Fin.ofNat 4 n).val + 128 * flagNat (n.testBit 7) = n := by
  have profile : (Fin.ofNat 4 n).val = n % 4 := rfl
  have steal : n.testBit 7 = decide (n / 128 % 2 = 1) := Nat.testBit_eq_decide_div_mod_eq
  rw [profile, steal, flagNat]
  split_ifs with on <;> rw [decide_eq_true_eq] at on <;> omega

section
variable {p : Bytes} (long : p.length = 7) (canonical : listEntryCanonical p = true)
include long canonical

theorem listEntryBytes_read_none (kind : field p 0 1 = 0) : listEntryBytes .none = p := by
  have unnamed : field p 1 6 = 0 := by simpa [listEntryCanonical, kind] using canonical
  have first := byte_standsAt (p := p) (place := 0) (by omega)
  rw [kind] at first
  exact (first.append (zeros_standsAt (place := 1) (size := 6) (by omega) unnamed)).eq long

theorem listEntryBytes_read_fin (kind : field p 0 1 = 2) : listEntryBytes (.fin (field p 1 2)) = p := by
  have unnamed : field p 3 4 = 0 := by simpa [listEntryCanonical, kind] using canonical
  have first := byte_standsAt (p := p) (place := 0) (by omega)
  rw [kind] at first
  have offset := first.append (word_standsAt (place := 1) (by omega))
  exact (offset.append (zeros_standsAt (place := 3) (size := 4) (by omega) unnamed)).eq long

theorem listEntryBytes_read_shot (kind : field p 0 1 = 1) (head : field p 3 1 ≤ 7) :
    listEntryBytes (.shot (field p 1 2) (Fin.ofNat 8 (field p 3 1)) (field p 4 1) (field p 5 1) (Fin.ofNat 4 (field p 6 1)) (flagBit p 6 7))
      = p := by
  have unnamed : field p 6 1 % 128 < 4 := by simpa [listEntryCanonical, kind] using canonical
  have byte (place : Nat) (inside : place ≤ 6) := byte_standsAt (p := p) (place := place) (by omega)
  have first := byte 0 (by decide)
  rw [kind] at first
  have named : (Fin.ofNat 8 (field p 3 1)).val = field p 3 1 := Nat.mod_eq_of_lt (Nat.lt_succ_of_le head)
  have last : (Fin.ofNat 4 (field p 6 1)).val + 128 * flagNat (flagBit p 6 7) = field p 6 1 :=
    profile_and_steal_read (field_le_max p 6).1 unnamed
  rw [listEntryBytes, named, last]
  have offset := first.append (word_standsAt (place := 1) (by omega))
  have others := (((byte 3 (by decide)).append (byte 4 (by decide))).append (byte 5 (by decide))).append (byte 6 (by decide))
  exact (offset.append others).eq long

/-- An entry that is read is written as it was read. -/
theorem listEntryBytes_read {e : ListEntry} (read : readListEntry p = some e) : listEntryBytes e = p := by
  unfold readListEntry at read
  split_ifs at read with none fin offset shot fields
  · rw [← Option.some.inj read]
    exact listEntryBytes_read_none long canonical none
  · rw [← Option.some.inj read]
    exact listEntryBytes_read_fin long canonical fin
  · rw [← Option.some.inj read]
    exact listEntryBytes_read_shot long canonical shot fields.2.1

end

theorem listPartBytes_read (long : c.length = 56) (inRange : contentsInRange 5 c = true) (canonical : contentsCanonical 5 c = true) :
    listPartBytes (readListPart c) = c := by
  rw [listPartBytes, readListPart, Vector.toList_ofFn]
  refine flatMap_ofFn_of_groups (size := 7) long fun i => ?_
  have mem : i.val ∈ List.range 8 := List.mem_range.2 i.isLt
  obtain ⟨e, read⟩ := Option.isSome_iff_exists.1 (List.all_eq_true.1 inRange i.val mem)
  have size : ((c.drop (7 * i.val)).take 7).length = 7 := by
    rw [List.length_take, List.length_drop]
    omega
  rw [read, Option.getD_some]
  exact listEntryBytes_read size (List.all_eq_true.1 canonical i.val mem) read

end

/-! ### The ten tables -/

/-- An entry written to a place of a table is held there. -/
theorem getElem?_setIfInBounds_join {α : Type} {n i : Nat} (v : Vector (Option α) n) (inside : i < n) (a : α) :
    (v.setIfInBounds i (some a))[i]?.join = some a := by
  simp [inside]

/-- A part of a grade curve is held at its place, whatever its write clears of the others (R193). -/
theorem storeGrade_held {i : Nat} (grades : Vector (Option GradePart) 24) (inside : i < 24) (g : GradePart) :
    (storeGrade grades i g)[i]?.join = some g := by
  rw [storeGrade_eq grades ⟨i, inside⟩ g]
  simp [inside]

/-- A table that holds what was read of contents gives them back, and says that it is loaded. -/
theorem contents_of_held {α : Type} (bytes : α → Bytes) {entry : Option α} {a unloaded : α} {c : Bytes} (held : entry = some a)
    (read : bytes a = c) : bytes (entry.getD unloaded) = c ∧ entry.isSome = true := by
  subst held
  exact ⟨read, rfl⟩

/-- Settles O11: table by table, the entry stored is held, and its bytes are the contents that it was read from. -/
theorem storedContentsReadBack : Obligations.StoredContentsReadBack := by
  intro x table index c known place long inRange canonical
  have inside : index < maxIndex table + 1 := Nat.lt_succ_of_le place
  interval_cases table
  · exact contents_of_held headEntryBytes (getElem?_setIfInBounds_join x.heads inside _) (headEntryBytes_read long (of_decide_eq_true canonical))
  · exact contents_of_held trackingBytes rfl (trackingBytes_read long)
  · exact contents_of_held productBytes (getElem?_setIfInBounds_join x.products inside _) (productBytes_read long)
  · exact contents_of_held gradePartBytes (storeGrade_held x.grades inside _) (gradePartBytes_read long)
  · exact contents_of_held (fun n => [byteOf n]) rfl (byteOf_read long)
  · exact contents_of_held listPartBytes (getElem?_setIfInBounds_join x.lists inside _) (listPartBytes_read long inRange canonical)
  · exact contents_of_held profileBytes (getElem?_setIfInBounds_join x.profiles inside _) (profileBytes_read long)
  · exact contents_of_held calSetupBytes rfl (calSetupBytes_read long (of_decide_eq_true canonical))
  · exact contents_of_held (fun n : BitVec 16 => be16 n.toNat) rfl (pattern_read long)
  · exact contents_of_held (fun n => [byteOf n]) rfl (byteOf_read long)

end Sys2Proof.Machine
end

section
/-! PROOFS. Frames received as they were sent (R200 to R202), the part held while RST is low (R211), and the command that a step takes (R211). -/

namespace Sys2Proof.Machine

/-! ### Frames received as they were sent (R200 to R202) -/

/-- A whole frame of the line chain that ends in the check code of its body (R202). -/
theorem receiveLine_lineBytes {f : LineFrame} (fits : f.payload.length ≤ 248) : receiveLine (lineBytes f) = .frame f := by
  have len := byteOf_length fits
  change receiveLine (f.dest :: f.source :: f.kind :: f.tag :: byteOf f.payload.length
    :: (f.payload ++ be16 (crc16 (lineBody f)).toNat)) = _
  rw [receiveLine, len, if_neg (by omega), if_neg (by simp), List.take_left, List.drop_left,
    List.take_of_length_le (Nat.le_of_eq (be16_length _)), bytesToNat_be16 _ (crc16 (lineBody f)).isLt]
  exact if_pos rfl

/-- As `receiveLine_lineBytes`, for the head link. -/
theorem receiveHead_headBytes {f : HeadFrame} (fits : f.payload.length ≤ 248) : receiveHead (headBytes f) = .frame f := by
  have len := byteOf_length fits
  change receiveHead (f.node :: f.kind :: byteOf f.payload.length :: (f.payload ++ be16 (crc16 (headBody f)).toNat)) = _
  rw [receiveHead, len, if_neg (by omega), if_neg (by simp), List.take_left, List.drop_left,
    List.take_of_length_le (Nat.le_of_eq (be16_length _)), bytesToNat_be16 _ (crc16 (headBody f)).isLt]
  exact if_pos rfl

/-- Settles O30: a whole frame passes the length checks, its payload ends where its length byte says, and its check code is that of its
body. -/
theorem framesRoundTrip : Obligations.FramesRoundTrip :=
  ⟨fun _ fits => receiveLine_lineBytes fits, fun _ fits => receiveHead_headBytes fits⟩

/-! ### The command that a step takes (R211) -/

theorem step_of_pending {s : State} {c : Instr} {rest : List Instr} (front : s.pending = c :: rest) :
    step s = exec c (s.setPending rest) := by
  rw [step, front]

theorem step_of_idle {s : State} (idle : s.pending = []) : step s = .next (s.setTime (s.partTime + 1)) := by
  rw [step, idle]

/-- Settles O1, by the two forms of the queue. -/
theorem stepTakesFrontOrTicks : Obligations.StepTakesFrontOrTicks :=
  ⟨fun _ _ _ front => step_of_pending front, fun _ idle => step_of_idle idle⟩

/-! ### The part while RST is low (R211) -/

section
variable {s : State} (low : s.rstHigh = false)
include low

theorem acting_of_rstLow (t : PartTime) (f : State → State) : acting t s f = s.setTime t := by
  simp [acting, low]

theorem actingTimed_of_rstLow (f : State → State) : actingTimed s f = s := by
  simp [actingTimed, low]

theorem State.commandArrives_of_rstLow (t : PartTime) (h : CommandHeader) (code : Byte) (args : Bytes) (cut : Cut) :
    s.commandArrives t h code args cut = s.setTime t :=
  acting_of_rstLow low t _

end

/-- Settles O3: a command that comes at a part time brings that time and nothing else, and a timed event not even a time. -/
theorem heldWhileRstLow : Obligations.HeldWhileRstLow := by
  intro c s low
  have command (t : PartTime) (h : CommandHeader) (code : Byte) (args : Bytes) (cut : Cut) :
      ∃ t', Host.Outcome.next (s.commandArrives t h code args cut) = (.next (s.setTime t') : Host.Outcome State Fault Refusal) :=
    ⟨t, congrArg _ (State.commandArrives_of_rstLow low t h code args cut)⟩
  have event (t : PartTime) (f : State → State) :
      ∃ t', Host.Outcome.next (acting t s f) = (.next (s.setTime t') : Host.Outcome State Fault Refusal) :=
    ⟨t, congrArg _ (acting_of_rstLow low t f)⟩
  have timed (f : State → State) :
      ∃ t', Host.Outcome.next (actingTimed s f) = (.next (s.setTime t') : Host.Outcome State Fault Refusal) :=
    ⟨s.partTime, congrArg _ (actingTimed_of_rstLow low f)⟩
  cases c
  case coldReset | rstRise | gateLineChange => trivial
  case cycleEnd | firingPoint | replyWindowExpiry | calibrationTimerExpiry | gateFilterExpiry => exact timed _
  case readTable | writeTable | start | stop | announce | requestCal | setAddress | status | setScratch | clearCapture | restart =>
    exact command _ _ _ _ _
  case restartTakesEffect | shotReport | motionReport | headLinkUnknownKind | headFrameCheck | headLinkTransmitDone
      | upstreamFrameArrival | downstreamFrameArrival | lineFrameCheck | upstreamTransmitterFree | downstreamTransmitterFree
      | lineFallsIdle =>
    exact event _ _

end Sys2Proof.Machine
end
